-- ==== Sys2Proof/Word.lean ====
section
/-! DEFINITION. The word types, the signed readings of a pattern, and the names of the 16-bit registers and of the
operand sources of the ALU block (`00_scope.md` R5, R6; `10_state.md` R10; `41_alu_primitives.md` R90). -/

namespace Sys2Proof

/-- `DATA_W` = 16 (R5): every data, working and scratch register but `pc_scratch` and `counter`, and every ALU operand. -/
abbrev Word := BitVec 16

/-- `COUNTER_W` = `PCS_W` = `DIVIDEND_W` = 32 (R5). -/
abbrev Long := BitVec 32

/-- A `control_state` code: `CS_W` = 6 bits (R5, R52). -/
abbrev LabelCode := BitVec 6

/-- `a:b`, concatenation with `a` in the more significant half (R6, R41). -/
def pair (a b : Word) : Long := a ++ b

/-- The 16-bit registers of the register file, by the spec's names (R10). -/
inductive Reg16 where
  | dividend_hi
  | dividend_lo
  | divisor
  | alu
  | alu_ext
  | alu_buf
  | addr_hi
  | addr_lo
  deriving DecidableEq, Repr

/-- An operand source of `and`, `sub` and `sub_extended`: a 16-bit register, or one of the two wired constants
`0x0000` and `0xFFFF` (R57, R90). -/
inductive AluOperand where
  | reg (r : Reg16)
  | zeros
  | ones
  deriving DecidableEq, Repr

end Sys2Proof
end

