-- ==== Sys2Proof/Config.lean ====
section
/-! DEFINITION. What is fixed for the machine: the parameters of `00_scope.md` R5 that a step uses, and the reset values the
model names for the registers to which the spec gives none (`notes/assumptions/1.md`). There is no free value: the two
open parameters that would call for one stand at the spec's default (`notes/assumptions/2.md`). -/

namespace Sys2Proof.Config

/-- `CYCLES_PER_STATE` = 2 (R5, R208): what every executed control state adds to `cycles`. -/
def cyclesPerState : Nat := 2

/-- `STEPS` = 16 (R5): the value `DVU3` and `DVSK` load into `counter` (R18, R57). -/
def steps : Long := 16#32

/-- DESIGN CHOICE (`notes/assumptions/1.md`): the value after reset of every 16-bit register; R31 gives none. -/
def resetWord : Word := 0#16

/-- DESIGN CHOICE (`notes/assumptions/1.md`): the value after reset of `pc_scratch` and `counter`; R31 gives none. -/
def resetLong : Long := 0#32

/-- DESIGN CHOICE (`notes/assumptions/1.md`): the value after reset of each of the five flags; R31 gives none. -/
def resetFlag : Bool := false

end Sys2Proof.Config
end

