-- ==== Sys2Proof/Syntax.lean ====
section
/-! DEFINITION. The instructions: one constructor for each of the 58 rows of `spec/opcode_table.json`, in the table's order
(2 of format `CMD`, 4 of format `ALU`, 49 of format `CS`, 3 of format `OUT`; `30_encoding.md` R50 to R59). -/

namespace Sys2Proof

/-- One constructor per row of the opcode table.
The three arithmetic primitives carry their two operand sources, the minuend or first operand (`dst`) first, and the register
that receives the result, `none` where the result is discarded; the pair shift carries the bit it injects. The spec leaves
these to the control state that issues the primitive (R85, R90): they are data of the instruction, not bits of its code. -/
inductive Instr where
  -- format CMD (R51): the two operations
  | divideUnsigned
  | divideSigned
  -- format ALU (R56): the four primitives
  | and (dst src : AluOperand) (result : Option Reg16)
  | sub (dst src : AluOperand) (result : Option Reg16)
  | subExtended (dst src : AluOperand) (result : Option Reg16)
  | shiftLeftPair (inject : Bool)
  -- format CS (R52), terminal labels (R53)
  | tNext
  | tTrap
  | tOvf
  | tAddr
  -- format CS, the unsigned engine (R101 to R116)
  | dvu1
  | dvu2
  | dvu3
  | dvuo1
  | dvuo2
  | dvush0
  | dvush1
  | dvusbf
  | dvusbt
  | dvuchk
  | dvurst
  | dvuf2f
  | dvuf2t
  | dvuf3f
  | dvuf3t
  | dvuf4
  -- format CS, the signed engine (R131 to R159)
  | dvs1
  | dvs2
  | dvsp0
  | dvsn1
  | dvsn2
  | dvsa
  | dvsc
  | dvsk
  | dvso1
  | dvsovx
  | dvssh0
  | dvssh1
  | dvssb
  | dvsck
  | dvsrs
  | dvsf2
  | dvsf3
  | dvsf4
  | dvsf5
  | dvsxp1
  | dvsxn1
  | dvspp2
  | dvspm2
  | dvspm3
  | dvsmm2
  | dvsmm3
  | dvsmp2
  | dvsmp3
  | dvswb
  -- format OUT (R54): the three outcomes
  | normal
  | divisionByZero
  | overflow
  deriving DecidableEq, Repr

end Sys2Proof
end

