-- ==== Sys2Proof/WellFormed.lean ====
section
/-! DEFINITION. Which terms of `Instr` are instructions: the result of an ALU primitive never goes to a register that a
primitive may not write. -/

namespace Sys2Proof

/-- `divisor` is "never mutated by either engine, under any outcome" (`10_state.md` R13). -/
def Reg16.isDivisor : Reg16 → Bool
  | .divisor => true
  | _ => false

/-- "only the writeback states `DVUF4` ... and `DVSWB` ... write them" (`10_state.md` R12), and neither issues a primitive. -/
def Reg16.isDividend : Reg16 → Bool
  | .dividend_hi | .dividend_lo => true
  | _ => false

/-- A register that may receive the result of an ALU primitive. -/
def Reg16.isAluResult (r : Reg16) : Bool := !r.isDivisor && !r.isDividend

/-- The result of a primitive is discarded, or goes to a register that may receive it. -/
def resultAllowed : Option Reg16 → Bool
  | none => true
  | some r => r.isAluResult

/-- The check on an instruction. Only the arithmetic primitives have operands that can be wrong. -/
def Instr.wellFormed : Instr → Bool
  | .and _ _ r => resultAllowed r
  | .sub _ _ r => resultAllowed r
  | .subExtended _ _ r => resultAllowed r
  | .divideUnsigned | .divideSigned | .shiftLeftPair _ => true
  | .tNext | .tTrap | .tOvf | .tAddr => true
  | .dvu1 | .dvu2 | .dvu3 | .dvuo1 | .dvuo2 | .dvush0 | .dvush1 | .dvusbf | .dvusbt | .dvuchk | .dvurst => true
  | .dvuf2f | .dvuf2t | .dvuf3f | .dvuf3t | .dvuf4 => true
  | .dvs1 | .dvs2 | .dvsp0 | .dvsn1 | .dvsn2 | .dvsa | .dvsc | .dvsk | .dvso1 | .dvsovx => true
  | .dvssh0 | .dvssh1 | .dvssb | .dvsck | .dvsrs | .dvsf2 | .dvsf3 | .dvsf4 | .dvsf5 => true
  | .dvsxp1 | .dvsxn1 | .dvspp2 | .dvspm2 | .dvspm3 | .dvsmm2 | .dvsmm3 | .dvsmp2 | .dvsmp3 | .dvswb => true
  | .normal | .divisionByZero | .overflow => true

end Sys2Proof
end

