-- ==== Sys2Proof/Decode.lean ====
section
/-! DEFINITION. The codes of `30_encoding.md`: the label codes by name (R52), the decoder of each format (R50 to R59), total and
rejecting by name, and after it the encoder. A number has a meaning only in its format: the formats stand on different places
of the block (`op` input, `control_state`, the function select of a control state, the `outcome` port) and share their low codes. -/

namespace Sys2Proof

/-! ## The label codes (R52) -/

namespace Label

/-- `T_NEXT`. -/
abbrev tNext : LabelCode := 0x00#6

/-- `T_TRAP`. -/
abbrev tTrap : LabelCode := 0x01#6

/-- `T_OVF`. -/
abbrev tOvf : LabelCode := 0x02#6

/-- `T_ADDR`. -/
abbrev tAddr : LabelCode := 0x03#6

/-- `DVU1`. -/
abbrev dvu1 : LabelCode := 0x10#6

/-- `DVU2`. -/
abbrev dvu2 : LabelCode := 0x11#6

/-- `DVU3`. -/
abbrev dvu3 : LabelCode := 0x12#6

/-- `DVUO1`. -/
abbrev dvuo1 : LabelCode := 0x13#6

/-- `DVUO2`. -/
abbrev dvuo2 : LabelCode := 0x14#6

/-- `DVUSH0`. -/
abbrev dvush0 : LabelCode := 0x15#6

/-- `DVUSH1`. -/
abbrev dvush1 : LabelCode := 0x16#6

/-- `DVUSBF`. -/
abbrev dvusbf : LabelCode := 0x17#6

/-- `DVUSBT`. -/
abbrev dvusbt : LabelCode := 0x18#6

/-- `DVUCHK`. -/
abbrev dvuchk : LabelCode := 0x19#6

/-- `DVURST`. -/
abbrev dvurst : LabelCode := 0x1A#6

/-- `DVUF2F`. -/
abbrev dvuf2f : LabelCode := 0x1B#6

/-- `DVUF2T`. -/
abbrev dvuf2t : LabelCode := 0x1C#6

/-- `DVUF3F`. -/
abbrev dvuf3f : LabelCode := 0x1D#6

/-- `DVUF3T`. -/
abbrev dvuf3t : LabelCode := 0x1E#6

/-- `DVUF4`. -/
abbrev dvuf4 : LabelCode := 0x1F#6

/-- `DVS1`. -/
abbrev dvs1 : LabelCode := 0x20#6

/-- `DVS2`. -/
abbrev dvs2 : LabelCode := 0x21#6

/-- `DVSP0`. -/
abbrev dvsp0 : LabelCode := 0x22#6

/-- `DVSN1`. -/
abbrev dvsn1 : LabelCode := 0x23#6

/-- `DVSN2`. -/
abbrev dvsn2 : LabelCode := 0x24#6

/-- `DVSA`. -/
abbrev dvsa : LabelCode := 0x25#6

/-- `DVSC`. -/
abbrev dvsc : LabelCode := 0x26#6

/-- `DVSK`. -/
abbrev dvsk : LabelCode := 0x27#6

/-- `DVSO1`. -/
abbrev dvso1 : LabelCode := 0x28#6

/-- `DVSOVX`. -/
abbrev dvsovx : LabelCode := 0x29#6

/-- `DVSSH0`. -/
abbrev dvssh0 : LabelCode := 0x2A#6

/-- `DVSSH1`. -/
abbrev dvssh1 : LabelCode := 0x2B#6

/-- `DVSSB`. -/
abbrev dvssb : LabelCode := 0x2C#6

/-- `DVSCK`. -/
abbrev dvsck : LabelCode := 0x2D#6

/-- `DVSRS`. -/
abbrev dvsrs : LabelCode := 0x2E#6

/-- `DVSF2`. -/
abbrev dvsf2 : LabelCode := 0x2F#6

/-- `DVSF3`. -/
abbrev dvsf3 : LabelCode := 0x30#6

/-- `DVSF4`. -/
abbrev dvsf4 : LabelCode := 0x31#6

/-- `DVSF5`. -/
abbrev dvsf5 : LabelCode := 0x32#6

/-- `DVSXP1`. -/
abbrev dvsxp1 : LabelCode := 0x33#6

/-- `DVSXN1`. -/
abbrev dvsxn1 : LabelCode := 0x34#6

/-- `DVSPP2`. -/
abbrev dvspp2 : LabelCode := 0x35#6

/-- `DVSPM2`. -/
abbrev dvspm2 : LabelCode := 0x36#6

/-- `DVSPM3`. -/
abbrev dvspm3 : LabelCode := 0x37#6

/-- `DVSMM2`. -/
abbrev dvsmm2 : LabelCode := 0x38#6

/-- `DVSMM3`. -/
abbrev dvsmm3 : LabelCode := 0x39#6

/-- `DVSMP2`. -/
abbrev dvsmp2 : LabelCode := 0x3A#6

/-- `DVSMP3`. -/
abbrev dvsmp3 : LabelCode := 0x3B#6

/-- `DVSWB`. -/
abbrev dvswb : LabelCode := 0x3C#6

end Label

/-! ## What is decoded -/

/-- What the control state that issues a primitive supplies beside the function code: "which one, with which operands and
which destination, is given by the state's rule and is not a field the sequencer decodes at run time" (R56). -/
structure AluPorts where
  dst : AluOperand
  src : AluOperand
  result : Option Reg16
  inject : Bool
  deriving DecidableEq, Repr

/-- A value in its format (R50). `FLG` carries no instruction; its packing is `Machine.Flags.pack`. -/
inductive Code where
  | cmd (op : BitVec 1)
  | alu (fn : BitVec 2) (ports : AluPorts)
  | cs (code : LabelCode)
  | out (tag : BitVec 2)
  deriving DecidableEq, Repr

/-- Why a value is refused (R58). -/
inductive DecodeError where
  /-- A `CS` code that names no label: 0x04 to 0x0F, 0x3D to 0x3F. -/
  | undefinedLabel
  /-- `OUT` tag 3, "reserved and never produced". -/
  | reservedOutcome
  deriving DecidableEq, Repr

/-- The answer of the decoder. -/
inductive Decoded where
  | instr (i : Instr)
  | rejected (e : DecodeError)
  deriving DecidableEq, Repr

/-! ## The decoder -/

/-- A row of the opcode table of format `CS` (R59). -/
structure CsRow where
  code : LabelCode
  mask : LabelCode
  instr : Instr
  deriving DecidableEq, Repr

/-- "a value `v` selects the row when `v & mask = match`" (R59). -/
def CsRow.selects (r : CsRow) (v : LabelCode) : Bool := v &&& r.mask == r.code

/-- "every mask is the full width" (R59). -/
def csRow (code : LabelCode) (i : Instr) : CsRow := ⟨code, 0x3F#6, i⟩

/-- The terminal labels (R52, R53). -/
def terminalRows : List CsRow :=
  [csRow 0x00#6 .tNext,
   csRow 0x01#6 .tTrap,
   csRow 0x02#6 .tOvf,
   csRow 0x03#6 .tAddr]

/-- The labels of the unsigned engine (R52). -/
def unsignedRows : List CsRow :=
  [csRow 0x10#6 .dvu1,
   csRow 0x11#6 .dvu2,
   csRow 0x12#6 .dvu3,
   csRow 0x13#6 .dvuo1,
   csRow 0x14#6 .dvuo2,
   csRow 0x15#6 .dvush0,
   csRow 0x16#6 .dvush1,
   csRow 0x17#6 .dvusbf,
   csRow 0x18#6 .dvusbt,
   csRow 0x19#6 .dvuchk,
   csRow 0x1A#6 .dvurst,
   csRow 0x1B#6 .dvuf2f,
   csRow 0x1C#6 .dvuf2t,
   csRow 0x1D#6 .dvuf3f,
   csRow 0x1E#6 .dvuf3t,
   csRow 0x1F#6 .dvuf4]

/-- The labels of the signed engine (R52). -/
def signedRows : List CsRow :=
  [csRow 0x20#6 .dvs1,
   csRow 0x21#6 .dvs2,
   csRow 0x22#6 .dvsp0,
   csRow 0x23#6 .dvsn1,
   csRow 0x24#6 .dvsn2,
   csRow 0x25#6 .dvsa,
   csRow 0x26#6 .dvsc,
   csRow 0x27#6 .dvsk,
   csRow 0x28#6 .dvso1,
   csRow 0x29#6 .dvsovx,
   csRow 0x2A#6 .dvssh0,
   csRow 0x2B#6 .dvssh1,
   csRow 0x2C#6 .dvssb,
   csRow 0x2D#6 .dvsck,
   csRow 0x2E#6 .dvsrs,
   csRow 0x2F#6 .dvsf2,
   csRow 0x30#6 .dvsf3,
   csRow 0x31#6 .dvsf4,
   csRow 0x32#6 .dvsf5,
   csRow 0x33#6 .dvsxp1,
   csRow 0x34#6 .dvsxn1,
   csRow 0x35#6 .dvspp2,
   csRow 0x36#6 .dvspm2,
   csRow 0x37#6 .dvspm3,
   csRow 0x38#6 .dvsmm2,
   csRow 0x39#6 .dvsmm3,
   csRow 0x3A#6 .dvsmp2,
   csRow 0x3B#6 .dvsmp3,
   csRow 0x3C#6 .dvswb]

/-- Format `CS`: 49 rows. -/
def csRows : List CsRow := terminalRows ++ unsignedRows ++ signedRows

/-- The instruction a `control_state` code selects, `none` for a code that names no label (R58, R59). -/
def decodeLabel (v : LabelCode) : Option Instr := (csRows.find? fun r => r.selects v).map CsRow.instr

/-- `grp`, bits 5:4 of a label code (R50). -/
def labelGrp (v : LabelCode) : BitVec 2 := v.extractLsb' 4 2

/-- `idx`, bits 3:0 of a label code (R50). -/
def labelIdx (v : LabelCode) : BitVec 4 := v.extractLsb' 0 4

/-- "A label is terminal when its code is 0x00 to 0x03" (R72), which is `grp = 0` and `idx < 4` (R59). -/
def isTerminalLabel (v : LabelCode) : Bool := decide (v.toNat < 4)

/-- Format `CMD`: "`op = 0` selects `divide_unsigned`; `op = 1` selects `divide_signed`" (R51). -/
def decodeCommand (op : BitVec 1) : Instr := if op = 0#1 then .divideUnsigned else .divideSigned

/-- Format `ALU` (R56): the function code selects the primitive, the ports give its operands and the place of its result. -/
def decodeAlu (fn : BitVec 2) (p : AluPorts) : Instr :=
  if fn = 0#2 then .and p.dst p.src p.result
  else if fn = 1#2 then .sub p.dst p.src p.result
  else if fn = 2#2 then .subExtended p.dst p.src p.result
  else .shiftLeftPair p.inject

/-- Format `OUT` (R54). -/
def decodeOutcome (tag : BitVec 2) : Option Instr :=
  if tag = 0#2 then some .normal
  else if tag = 1#2 then some .divisionByZero
  else if tag = 2#2 then some .overflow
  else none

/-- The decoder of all four formats, total on every value. -/
def decode : Code → Decoded
  | .cmd op => .instr (decodeCommand op)
  | .alu fn p => .instr (decodeAlu fn p)
  | .cs c => match decodeLabel c with
    | some i => .instr i
    | none => .rejected .undefinedLabel
  | .out t => match decodeOutcome t with
    | some i => .instr i
    | none => .rejected .reservedOutcome

/-- The instruction of a table word of `nbits` bits with bits `w`. The block stores no instruction: the coded words it takes
are the content of `control_state`, which the sequencer decodes at every step, and, one bit wide, the `op` input of an
invocation. So a word of one bit is read as format `CMD` and every other as a `control_state` code in a whole byte, whose
bits 7:6 are 0 (`notes/assumptions/4.md`). -/
def decodeTableWord (nbits w : Nat) : Option Instr :=
  if nbits = 1 then (if w < 2 then some (decodeCommand (BitVec.ofNat 1 w)) else none)
  else if w < 64 then decodeLabel (BitVec.ofNat 6 w) else none

/-! ## The encoder -/

/-- The ports of a primitive with two operands. -/
def AluPorts.ofOperands (dst src : AluOperand) (result : Option Reg16) : AluPorts := ⟨dst, src, result, false⟩

/-- The ports of a pair shift: it has no operand source and no result register. -/
def AluPorts.ofInject (b : Bool) : AluPorts := ⟨.zeros, .zeros, none, b⟩

/-- The code of an instruction in its format (R51, R52, R54, R56). -/
def encode : Instr → Code
  | .divideUnsigned => .cmd 0#1
  | .divideSigned => .cmd 1#1
  | .and a b r => .alu 0#2 (.ofOperands a b r)
  | .sub a b r => .alu 1#2 (.ofOperands a b r)
  | .subExtended a b r => .alu 2#2 (.ofOperands a b r)
  | .shiftLeftPair b => .alu 3#2 (.ofInject b)
  | .tNext => .cs Label.tNext
  | .tTrap => .cs Label.tTrap
  | .tOvf => .cs Label.tOvf
  | .tAddr => .cs Label.tAddr
  | .dvu1 => .cs Label.dvu1
  | .dvu2 => .cs Label.dvu2
  | .dvu3 => .cs Label.dvu3
  | .dvuo1 => .cs Label.dvuo1
  | .dvuo2 => .cs Label.dvuo2
  | .dvush0 => .cs Label.dvush0
  | .dvush1 => .cs Label.dvush1
  | .dvusbf => .cs Label.dvusbf
  | .dvusbt => .cs Label.dvusbt
  | .dvuchk => .cs Label.dvuchk
  | .dvurst => .cs Label.dvurst
  | .dvuf2f => .cs Label.dvuf2f
  | .dvuf2t => .cs Label.dvuf2t
  | .dvuf3f => .cs Label.dvuf3f
  | .dvuf3t => .cs Label.dvuf3t
  | .dvuf4 => .cs Label.dvuf4
  | .dvs1 => .cs Label.dvs1
  | .dvs2 => .cs Label.dvs2
  | .dvsp0 => .cs Label.dvsp0
  | .dvsn1 => .cs Label.dvsn1
  | .dvsn2 => .cs Label.dvsn2
  | .dvsa => .cs Label.dvsa
  | .dvsc => .cs Label.dvsc
  | .dvsk => .cs Label.dvsk
  | .dvso1 => .cs Label.dvso1
  | .dvsovx => .cs Label.dvsovx
  | .dvssh0 => .cs Label.dvssh0
  | .dvssh1 => .cs Label.dvssh1
  | .dvssb => .cs Label.dvssb
  | .dvsck => .cs Label.dvsck
  | .dvsrs => .cs Label.dvsrs
  | .dvsf2 => .cs Label.dvsf2
  | .dvsf3 => .cs Label.dvsf3
  | .dvsf4 => .cs Label.dvsf4
  | .dvsf5 => .cs Label.dvsf5
  | .dvsxp1 => .cs Label.dvsxp1
  | .dvsxn1 => .cs Label.dvsxn1
  | .dvspp2 => .cs Label.dvspp2
  | .dvspm2 => .cs Label.dvspm2
  | .dvspm3 => .cs Label.dvspm3
  | .dvsmm2 => .cs Label.dvsmm2
  | .dvsmm3 => .cs Label.dvsmm3
  | .dvsmp2 => .cs Label.dvsmp2
  | .dvsmp3 => .cs Label.dvsmp3
  | .dvswb => .cs Label.dvswb
  | .normal => .out 0#2
  | .divisionByZero => .out 1#2
  | .overflow => .out 2#2

end Sys2Proof
end

