-- ==== Sys2Proof/Machine/State.lean ====
section
/-! DEFINITION. The register file (`10_state.md` R10), the moves of the caller that wait at the interface
(`70_reset_and_hazards.md` R212), the reasons a step can stop, and the state after reset (R31, R200). -/

namespace Sys2Proof.Machine

/-- "5 independent bits — Extend(X), Negative(N), Zero(Z), Overflow(V), Carry(C)" (R22). -/
structure Flags where
  x : Bool
  n : Bool
  z : Bool
  v : Bool
  c : Bool
  deriving DecidableEq, Repr

/-- The outcome tags (R54, R180). -/
inductive OutcomeTag where
  | normal
  | divisionByZero
  | overflow
  deriving DecidableEq, Repr

/-- A move of the caller at the interface of the block, legal "while a terminal label is held" (R11, R25, R212): a pulse of
`start` with the value of `op`, or a write of one field of the register file. Reading changes nothing and is no move. -/
inductive CallerMove where
  | start (op : BitVec 1)
  | writeReg (r : Reg16) (v : Word)
  | writePcScratch (v : Long)
  | writeCounter (v : Long)
  /-- The flags travel packed in format `FLG` on a port (R55). -/
  | writeFlags (v : BitVec 5)
  | writeCycles (n : Nat)
  | writeControlState (v : LabelCode)
  deriving DecidableEq, Repr

/-- The register file, thirteen fields under the spec's names (R10), and one field of the model's own. -/
structure State where
  dividend_hi : Word
  dividend_lo : Word
  divisor : Word
  pc_scratch : Long
  alu : Word
  alu_ext : Word
  alu_buf : Word
  addr_hi : Word
  addr_lo : Word
  counter : Long
  flags : Flags
  control_state : LabelCode
  /-- Unbounded (R26). -/
  cycles : Nat
  /-- The MODEL's own field, not the spec's (`notes/assumptions/3.md`): the moves the caller makes while a terminal label is
  held, first move first. An invocation neither reads nor changes it. -/
  inputs : List CallerMove
  deriving DecidableEq, Repr

/-- What stops the machine. -/
inductive Fault where
  /-- Raised by `step` when `control_state` names no label: "the model has no step (stuck), and must not invent one" (R77,
  R58). Safe: the spec gives no step, so no claim about one can be proved. -/
  | undefinedLabel
  deriving DecidableEq, Repr

/-- What is refused. -/
inductive Refusal where
  /-- Raised by an arm of `exec` whose instruction has no meaning yet; no arm does. Safe. -/
  | notModelled (mnemonic : String)
  /-- Raised by the two operations when `start` is pulsed while a non-terminal label is held: "`refuse`: not a legal move of
  the caller" (`93_implementation_defined.md` U8; R212). Unsafe in the spec's own words: it assumes the caller never does it. -/
  | startWhileRunning
  /-- Raised by a caller's write of a `control_state` code that names no label: "illegal" (R25). Safe. -/
  | undefinedLabelWritten
  /-- Raised by a caller's write of an odd number to `cycles`: "the caller must supply an even value" (R26), "`refuse`: the
  caller's duty" (`93_implementation_defined.md` U7). Safe. -/
  | oddCyclesWritten
  /-- Raised by `and`, `sub` and `sub_extended` as terms that are not well-formed: the result would go to `divisor` or to a
  dividend register, which no primitive writes (R12, R13). Safe. -/
  | resultNotWritable
  deriving DecidableEq, Repr

/-- The outcome of a step of this machine. -/
abbrev Out := Host.Outcome State Fault Refusal

/-- The machine right after reset: "Reset writes `control_state <- T_NEXT` and `cycles <- 0` and nothing else" (R200); the
values of the other fields are the model's (`notes/assumptions/1.md`), and no move of the caller waits. -/
def State.reset : State where
  dividend_hi := Config.resetWord
  dividend_lo := Config.resetWord
  divisor := Config.resetWord
  pc_scratch := Config.resetLong
  alu := Config.resetWord
  alu_ext := Config.resetWord
  alu_buf := Config.resetWord
  addr_hi := Config.resetWord
  addr_lo := Config.resetWord
  counter := Config.resetLong
  flags := ⟨Config.resetFlag, Config.resetFlag, Config.resetFlag, Config.resetFlag, Config.resetFlag⟩
  control_state := Label.tNext
  cycles := 0
  inputs := []

end Sys2Proof.Machine
end

