-- ==== Sys2Proof/Machine/Operands.lean ====
section
/-! DEFINITION. Reading and writing the 16-bit registers by name, and the operand sources of the ALU block
(`10_state.md` R10, R19; `41_alu_primitives.md` R85, R90). -/

namespace Sys2Proof.Machine

/-- "No register is hardwired to a value, none aliases another" (R19). -/
def State.readReg (s : State) : Reg16 → Word
  | .dividend_hi => s.dividend_hi
  | .dividend_lo => s.dividend_lo
  | .divisor => s.divisor
  | .alu => s.alu
  | .alu_ext => s.alu_ext
  | .alu_buf => s.alu_buf
  | .addr_hi => s.addr_hi
  | .addr_lo => s.addr_lo

/-- `<name> <- v` (R7). -/
def State.writeReg (s : State) (r : Reg16) (v : Word) : State :=
  match r with
  | .dividend_hi => { s with dividend_hi := v }
  | .dividend_lo => { s with dividend_lo := v }
  | .divisor => { s with divisor := v }
  | .alu => { s with alu := v }
  | .alu_ext => { s with alu_ext := v }
  | .alu_buf => { s with alu_buf := v }
  | .addr_hi => { s with addr_hi := v }
  | .addr_lo => { s with addr_lo := v }

/-- "the value of a 16-bit register of the register file ..., or one of the constants `0x0000` and `0xFFFF`" (R90). -/
def State.operand (s : State) : AluOperand → Word
  | .reg r => s.readReg r
  | .zeros => 0x0000#16
  | .ones => 0xFFFF#16

/-- The result of a primitive goes where the issuing state says, or is discarded (R85). -/
def State.storeResult (s : State) (dest : Option Reg16) (v : Word) : State :=
  match dest with
  | none => s
  | some r => s.writeReg r v

/-- `flags <- f`, the write of the flags register (R7). -/
def State.setFlags (s : State) (f : Flags) : State := { s with flags := f }

/-- The working pair `alu:alu_ext` as one 32-bit value (R15, R41). -/
def State.workingPair (s : State) : Long := pair s.alu s.alu_ext

/-- The dividend `dividend_hi:dividend_lo` (R12, R41). -/
def State.dividend (s : State) : Long := pair s.dividend_hi s.dividend_lo

end Sys2Proof.Machine
end

