-- ==== Sys2Proof/Machine/Flags.lean ====
section
/-! DEFINITION. The pure functions of the ALU primitives (`41_alu_primitives.md` R86 to R89) with their flag computations, and
the packed form of the flags (`30_encoding.md` R55). -/

namespace Sys2Proof.Machine

/-- `X*16 + N*8 + Z*4 + V*2 + C` (R23, R55). -/
def Flags.pack (f : Flags) : BitVec 5 :=
  BitVec.ofBool f.x ++ BitVec.ofBool f.n ++ BitVec.ofBool f.z ++ BitVec.ofBool f.v ++ BitVec.ofBool f.c

/-- The five flags of a packed value: bit 4 X, bit 3 N, bit 2 Z, bit 1 V, bit 0 C (R23). -/
def Flags.unpack (v : BitVec 5) : Flags where
  x := v.getLsbD 4
  n := v.getLsbD 3
  z := v.getLsbD 2
  v := v.getLsbD 1
  c := v.getLsbD 0

/-- What an arithmetic primitive yields: a 16-bit result and a new flags value (R85). -/
structure AluResult where
  r : Word
  f : Flags
  deriving DecidableEq, Repr

/-- `and16(a, b, fin)` (R86). -/
def and16 (a b : Word) (fin : Flags) : AluResult :=
  let r := a &&& b
  ⟨r, { x := fin.x, n := r.msb, z := r == 0x0000#16, v := false, c := false }⟩

/-- `sub16(a, b, fin)` (R87): all five flags from the operands and the result; `fin` is not read. -/
def sub16 (a b : Word) (_fin : Flags) : AluResult :=
  let r := a - b
  let borrow := decide (a < b)
  ⟨r, { x := borrow, n := r.msb, z := r == 0x0000#16, v := ((a ^^^ b) &&& (a ^^^ r)).msb, c := borrow }⟩

/-- `subx16(a, b, fin)` (R88): subtracts the resident X; no flag changes. -/
def subx16 (a b : Word) (fin : Flags) : AluResult :=
  ⟨a - b - (BitVec.ofBool fin.x).setWidth 16, fin⟩

/-- The pair shifted left by one with `inject` in the vacated bit, modulo `2^32` (R89). -/
def shiftPair (p : Long) (inject : Bool) : Long := (p <<< 1) ||| (BitVec.ofBool inject).setWidth 32

end Sys2Proof.Machine
end

