-- ==== Sys2Proof/Machine/Ops.lean ====
section
/-! DEFINITION. The operations the control states share: issuing a primitive, closing a microcycle, reporting an outcome, and
the micro-operations that stand in more than one state rule (`40_sequencer.md` R70 to R75; `60_exceptions.md` R180). Every
`next` is computed from the state as it was when the microcycle began (R71, R74). -/

namespace Sys2Proof.Machine

/-! ## Issuing a primitive (R85, R90): the result goes to its place, the new flags value to the flags register -/

def State.issueAnd (s : State) (dst src : AluOperand) (dest : Option Reg16) : State :=
  let o := and16 (s.operand dst) (s.operand src) s.flags
  (s.storeResult dest o.r).setFlags o.f

def State.issueSub (s : State) (dst src : AluOperand) (dest : Option Reg16) : State :=
  let o := sub16 (s.operand dst) (s.operand src) s.flags
  (s.storeResult dest o.r).setFlags o.f

def State.issueSubx (s : State) (dst src : AluOperand) (dest : Option Reg16) : State :=
  let o := subx16 (s.operand dst) (s.operand src) s.flags
  (s.storeResult dest o.r).setFlags o.f

/-- Both halves of `alu:alu_ext` at once; no flag changes (R89, R42). -/
def State.issueShift (s : State) (inject : Bool) : State :=
  let p := shiftPair s.workingPair inject
  { s with alu := p.extractLsb' 16 16, alu_ext := p.extractLsb' 0 16 }

/-! ## The end of a microcycle, and the end of an invocation -/

/-- Step 5 of the microcycle: `control_state <- next` and `cycles <- cycles + 2` (R71, R208). -/
def State.close (s : State) (next : LabelCode) : State :=
  { s with control_state := next, cycles := s.cycles + Config.cyclesPerState }

/-- The terminal label of an outcome (R54, R181 to R183). -/
def OutcomeTag.label : OutcomeTag → LabelCode
  | .normal => Label.tNext
  | .divisionByZero => Label.tTrap
  | .overflow => Label.tOvf

/-- Reporting an outcome, the block's counterpart of taking an exception: it "stops" in the terminal label of the outcome,
"saves nothing, switches no mode, masks nothing, pushes nothing and computes no vector" (R7, R180, R187). There is no return
operation (R188). -/
def State.report (s : State) (o : OutcomeTag) : State := { s with control_state := o.label }

/-- "`outcome_of(T_NEXT) = Normal`, `outcome_of(T_TRAP) = DivisionByZero`, `outcome_of(T_OVF) = Overflow`" (R73); `T_ADDR` has
no outcome (`93_implementation_defined.md` U4), and a label that is not terminal reports none. -/
def outcomeOf (label : LabelCode) : Option OutcomeTag :=
  if label = Label.tNext then some .normal
  else if label = Label.tTrap then some .divisionByZero
  else if label = Label.tOvf then some .overflow
  else none

/-- The output `done` (R212). -/
def State.done (s : State) : Bool := isTerminalLabel s.control_state

/-- The output `outcome` = `control_state[1:0]`, "valid while `done`" (R212, R54). -/
def State.outcomePort (s : State) : BitVec 2 := s.control_state.extractLsb' 0 2

/-- Reset of the block: it "writes `control_state <- T_NEXT` and `cycles <- 0` and nothing else", and during an invocation
"abandons it" (R200). It is no move of a run (R200: "a model need not provide reset as a move"). -/
def State.applyReset (s : State) : State := { s with control_state := Label.tNext, cycles := 0 }

/-- The entry label of an operation (R70): `DVU1` for `op = 0`, `DVS1` for `op = 1`. -/
def entryLabel (op : BitVec 1) : LabelCode := if op = 0#1 then Label.dvu1 else Label.dvs1

/-- `start` with `op`: it "writes the entry label into `control_state` and costs no cycle of its own", and is "legal only while
a terminal label is held" (R212). -/
def State.startInvocation (s : State) (op : BitVec 1) : Out :=
  if s.done then .next { s with control_state := entryLabel op } else .refused .startWhileRunning

/-! ## Micro-operations of the engines -/

/-- A state that does nothing but pass time (R204). -/
def State.idle (s : State) (next : LabelCode) : State := s.close next

/-- `(_, f) <- and16(src, 0xFFFF, fin)`: "a pure test", the result discarded (R86). -/
def State.test (s : State) (r : Reg16) : State := s.issueAnd (.reg r) .ones none

/-- `(_, f) <- sub16(r, alu_buf, fin)`: a compare, the result discarded (R92). -/
def State.compare (s : State) (r : Reg16) : State := s.issueSub (.reg r) (.reg .alu_buf) none

/-- `alu <- alu - alu_buf` with its flags (R108, R112). -/
def State.subtract (s : State) : State := s.issueSub (.reg .alu) (.reg .alu_buf) (some .alu)

/-- The trial subtract keeps `alu` in `addr_lo` "for a possible restore" (R109, R113, R143, R146). -/
def State.trialSubtract (s : State) : State := { s with addr_lo := s.alu }.subtract

/-- `alu <- addr_lo` (R111, R145). -/
def State.restore (s : State) : State := { s with alu := s.addr_lo }

/-- `alu <- dividend_hi`, `alu_ext <- dividend_lo` (R102, R132). -/
def State.loadWorkingPair (s : State) : State := { s with alu := s.dividend_hi, alu_ext := s.dividend_lo }

/-- The load of the step counter (R103, R138). -/
def State.loadCounter (s : State) : State := { s with counter := Config.steps }

/-- The pair shift and the decrement of a step's shift state (R106, R107, R141, R142). -/
def State.stepShift (s : State) (inject : Bool) : State :=
  { s.issueShift inject with counter := s.counter - 1#32 }

/-- A shift state found 1 in `counter`: it is the sixteenth step (R18, R106). -/
def State.lastStep (s : State) : Bool := s.counter == 1#32

/-- The collect after a final trial: on a borrow the remainder is the stashed value and the last quotient bit is 0, otherwise
the difference and 1 (R115, R147). -/
def State.collectTrial (s : State) : State :=
  if s.flags.c then { s with addr_hi := s.addr_lo }.issueShift false
  else { s with addr_hi := s.alu }.issueShift true

/-- The negate of a register: `sub16(0x0000, r, fin)`, the result in `dest` (R93). -/
def State.negate (s : State) (r : Reg16) (dest : Option Reg16) : State := s.issueSub .zeros (.reg r) dest

/-- The writeback of remainder and quotient, both in one control state (R42, R116, R159). -/
def State.writeback (s : State) (remainder quotient : Word) : State :=
  { s with dividend_hi := remainder, dividend_lo := quotient }

/-- The negated quotient is "neither negative nor zero" (R154, R158). -/
def Flags.positive (f : Flags) : Bool := !f.n && !f.z

end Sys2Proof.Machine
end

