-- ==== Sys2Proof/Machine/Alu.lean ====
section
/-! DEFINITION. The four ALU primitives as instructions (`41_alu_primitives.md` R85 to R91): the operands are read, the result
goes to its place or is discarded, the flags register takes the new flags value. A primitive names no successor and adds no
cycle: those belong to the control state that issues it (R71; `notes/assumptions/5.md`). -/

namespace Sys2Proof.Machine

/-- `and(dst, src)` (R86). -/
def execAnd (dst src : AluOperand) (result : Option Reg16) (s : State) : Out :=
  if resultAllowed result then .next (s.issueAnd dst src result) else .refused .resultNotWritable

/-- `sub(dst, src)` (R87). -/
def execSub (dst src : AluOperand) (result : Option Reg16) (s : State) : Out :=
  if resultAllowed result then .next (s.issueSub dst src result) else .refused .resultNotWritable

/-- `sub_extended(dst, src)` (R88). -/
def execSubExtended (dst src : AluOperand) (result : Option Reg16) (s : State) : Out :=
  if resultAllowed result then .next (s.issueSubx dst src result) else .refused .resultNotWritable

/-- `shift_left_pair(inject_bit)` (R89). -/
def execShiftLeftPair (inject : Bool) (s : State) : Out := .next (s.issueShift inject)

end Sys2Proof.Machine
end

