-- ==== Sys2Proof/Machine/Command.lean ====
section
/-! DEFINITION. The two operations, the terminal labels and the outcomes (`40_sequencer.md` R70, R72, R73; `60_exceptions.md`
R180 to R183). -/

namespace Sys2Proof.Machine

/-- `divide_unsigned(rf)`, `op = 0` (R51, R70, R212): the entry label is written; the control states that follow, one a step,
are the rest of the invocation, and `invoke` runs it whole. -/
def execDivideUnsigned (s : State) : Out := s.startInvocation 0#1

/-- `divide_signed(rf)`, `op = 1` (R51, R70, R212). -/
def execDivideSigned (s : State) : Out := s.startInvocation 1#1

/-! "A terminal label is not executed: it has no register transfer, issues no primitive, adds no cycles" (R72); it "is simply
idle until the caller invokes again" (R193). -/

def execTNext (s : State) : Out := .next s

def execTTrap (s : State) : Out := .next s

def execTOvf (s : State) : Out := .next s

/-- Never entered by this core; handed to the model it is "idle (a terminal label)" (`93_implementation_defined.md` U4). -/
def execTAddr (s : State) : Out := .next s

/-! The outcomes: the invocation ends in the terminal label of the outcome (R73, R180; `notes/assumptions/6.md`). -/

/-- `Normal` (R183). -/
def execNormal (s : State) : Out := .next (s.report .normal)

/-- `DivisionByZero` (R181). -/
def execDivisionByZero (s : State) : Out := .next (s.report .divisionByZero)

/-- `Overflow` (R182). -/
def execOverflow (s : State) : Out := .next (s.report .overflow)

end Sys2Proof.Machine
end

