-- ==== Sys2Proof/Machine/Signed.lean ====
section
/-! DEFINITION. The twenty-nine control states of the signed engine (`43_divide_signed.md` R131 to R159). -/

namespace Sys2Proof.Machine

/-! ## Setup -/

/-- `DVS1` (R131): load the comparison buffer, issue the sign and zero test of the divisor. -/
def execDvs1 (s : State) : Out :=
  .next (({ s with alu_buf := s.divisor }.test .divisor).close Label.dvs2)

/-- `DVS2` (R132): zero test, absolute value of the divisor, load of the working pair, dispatch on the dividend's sign. -/
def execDvs2 (s : State) : Out :=
  .next ((s.loadWorkingPair.negate .alu_buf (if s.flags.n then some .alu_buf else none)).close
    (if s.flags.z then OutcomeTag.divisionByZero.label
     else if s.dividend_hi.msb then Label.dvsn1 else Label.dvsp0))

/-! ## Dividend absolutization and early overflow test -/

/-- `DVSP0` (R133): positive dividend, idle. -/
def execDvsp0 (s : State) : Out := .next (s.idle Label.dvsa)

/-- `DVSN1` (R134): negate the low limb. -/
def execDvsn1 (s : State) : Out := .next ((s.negate .alu_ext (some .alu_ext)).close Label.dvsn2)

/-- `DVSN2` (R135): negate the high limb with the borrow. -/
def execDvsn2 (s : State) : Out := .next ((s.issueSubx .zeros (.reg .alu) (some .alu)).close Label.dvsa)

/-- `DVSA` (R136): flag settle on the high limb. -/
def execDvsa (s : State) : Out := .next ((s.test .alu).close Label.dvsc)

/-- `DVSC` (R137): compare the absolute dividend's high half with the absolute divisor. -/
def execDvsc (s : State) : Out := .next ((s.compare .alu).close Label.dvsk)

/-- `DVSK` (R138): early overflow decision, counter load. -/
def execDvsk (s : State) : Out :=
  .next (s.loadCounter.close (if s.flags.c then Label.dvssh0 else Label.dvso1))

/-- `DVSO1` (R139). -/
def execDvso1 (s : State) : Out := .next (s.idle Label.dvsovx)

/-- `DVSOVX` (R140): overflow exit, early and late. -/
def execDvsovx (s : State) : Out := .next (s.idle OutcomeTag.overflow.label)

/-! ## Loop -/

/-- The successor of a signed shift state, from the counter alone (R141, R142). -/
def State.signedShiftNext (s : State) : LabelCode := if s.lastStep then Label.dvsf2 else Label.dvssb

/-- `DVSSH0` (R141): step shift, quotient bit 0 injected. -/
def execDvssh0 (s : State) : Out := .next ((s.stepShift false).close s.signedShiftNext)

/-- `DVSSH1` (R142): step shift, quotient bit 1 injected. -/
def execDvssh1 (s : State) : Out := .next ((s.stepShift true).close s.signedShiftNext)

/-- `DVSSB` (R143): trial subtract. -/
def execDvssb (s : State) : Out := .next (s.trialSubtract.close Label.dvsck)

/-- `DVSCK` (R144): carry check. -/
def execDvsck (s : State) : Out := .next (s.idle (if s.flags.c then Label.dvsrs else Label.dvssh1))

/-- `DVSRS` (R145): restore. -/
def execDvsrs (s : State) : Out := .next (s.restore.close Label.dvssh0)

/-! ## Finishing -/

/-- `DVSF2` (R146): final trial subtract. -/
def execDvsf2 (s : State) : Out := .next (s.trialSubtract.close Label.dvsf3)

/-- `DVSF3` (R147): final collect. -/
def execDvsf3 (s : State) : Out := .next (s.collectTrial.close Label.dvsf4)

/-- `DVSF4` (R148): inspect the divisor's sign. -/
def execDvsf4 (s : State) : Out := .next ((s.test .divisor).close Label.dvsf5)

/-- `DVSF5` (R149): inspect the dividend's sign, dispatch on the divisor's sign. -/
def execDvsf5 (s : State) : Out :=
  .next ((s.test .dividend_hi).close (if s.flags.n then Label.dvsxn1 else Label.dvsxp1))

/-! ## Sign fix-up, the quadrants named (divisor sign, dividend sign) -/

/-- `DVSXP1` (R150): divisor positive. -/
def execDvsxp1 (s : State) : Out :=
  .next ((s.test .alu_ext).close (if s.flags.n then Label.dvspm2 else Label.dvspp2))

/-- `DVSXN1` (R151): divisor negative. -/
def execDvsxn1 (s : State) : Out :=
  .next ((s.test .alu_ext).close (if s.flags.n then Label.dvsmm2 else Label.dvsmp2))

/-- `DVSPP2` (R152): quadrant (+,+): copy the quotient; overflow test. -/
def execDvspp2 (s : State) : Out :=
  .next ({ s with addr_lo := s.alu_ext }.close (if s.flags.n then Label.dvsovx else Label.dvswb))

/-- `DVSPM2` (R153): quadrant (+,-): negate the quotient. -/
def execDvspm2 (s : State) : Out := .next ((s.negate .alu_ext (some .addr_lo)).close Label.dvspm3)

/-- `DVSPM3` (R154): quadrant (+,-): negate the remainder; overflow test. -/
def execDvspm3 (s : State) : Out :=
  .next ((s.negate .addr_hi (some .addr_hi)).close (if s.flags.positive then Label.dvsovx else Label.dvswb))

/-- `DVSMM2` (R155): quadrant (-,-): copy the quotient. -/
def execDvsmm2 (s : State) : Out := .next ({ s with addr_lo := s.alu_ext }.close Label.dvsmm3)

/-- `DVSMM3` (R156): quadrant (-,-): negate the remainder; overflow test. -/
def execDvsmm3 (s : State) : Out :=
  .next ((s.negate .addr_hi (some .addr_hi)).close (if s.flags.n then Label.dvsovx else Label.dvswb))

/-- `DVSMP2` (R157): quadrant (-,+): negate the quotient. -/
def execDvsmp2 (s : State) : Out := .next ((s.negate .alu_ext (some .addr_lo)).close Label.dvsmp3)

/-- `DVSMP3` (R158): quadrant (-,+): overflow test. -/
def execDvsmp3 (s : State) : Out :=
  .next (s.idle (if s.flags.positive then Label.dvsovx else Label.dvswb))

/-- `DVSWB` (R159): writeback. -/
def execDvswb (s : State) : Out := .next ((s.writeback s.addr_hi s.addr_lo).close OutcomeTag.normal.label)

end Sys2Proof.Machine
end

