-- ==== Sys2Proof/Machine/Unsigned.lean ====
section
/-! DEFINITION. The sixteen control states of the unsigned engine (`42_divide_unsigned.md` R101 to R116). -/

namespace Sys2Proof.Machine

/-- `DVU1` (R101): load the comparison buffer, issue the zero test. -/
def execDvu1 (s : State) : Out :=
  .next (({ s with alu_buf := s.divisor }.test .divisor).close Label.dvu2)

/-- `DVU2` (R102): zero test, load of the working pair, compare for the overflow pretest. -/
def execDvu2 (s : State) : Out :=
  .next ((s.loadWorkingPair.compare .dividend_hi).close
    (if s.flags.z then OutcomeTag.divisionByZero.label else Label.dvu3))

/-- `DVU3` (R103): overflow pretest, counter load. -/
def execDvu3 (s : State) : Out :=
  .next (s.loadCounter.close (if s.flags.c then Label.dvush0 else Label.dvuo1))

/-- `DVUO1` (R104). -/
def execDvuo1 (s : State) : Out := .next (s.idle Label.dvuo2)

/-- `DVUO2` (R105). -/
def execDvuo2 (s : State) : Out := .next (s.idle OutcomeTag.overflow.label)

/-- The successor of an unsigned shift state, from the bit that leaves the top and the counter (R106, R107). -/
def State.unsignedShiftNext (s : State) : LabelCode :=
  if s.lastStep then (if s.alu.msb then Label.dvuf2f else Label.dvuf2t)
  else (if s.alu.msb then Label.dvusbf else Label.dvusbt)

/-- `DVUSH0` (R106): step shift, quotient bit 0 injected. -/
def execDvush0 (s : State) : Out := .next ((s.stepShift false).close s.unsignedShiftNext)

/-- `DVUSH1` (R107): step shift, quotient bit 1 injected. -/
def execDvush1 (s : State) : Out := .next ((s.stepShift true).close s.unsignedShiftNext)

/-- `DVUSBF` (R108): forced subtract. -/
def execDvusbf (s : State) : Out := .next (s.subtract.close Label.dvush1)

/-- `DVUSBT` (R109): trial subtract. -/
def execDvusbt (s : State) : Out := .next (s.trialSubtract.close Label.dvuchk)

/-- `DVUCHK` (R110): carry check. -/
def execDvuchk (s : State) : Out := .next (s.idle (if s.flags.c then Label.dvurst else Label.dvush1))

/-- `DVURST` (R111): restore. -/
def execDvurst (s : State) : Out := .next (s.restore.close Label.dvush0)

/-- `DVUF2F` (R112): final forced subtract. -/
def execDvuf2f (s : State) : Out := .next (s.subtract.close Label.dvuf3f)

/-- `DVUF2T` (R113): final trial subtract. -/
def execDvuf2t (s : State) : Out := .next (s.trialSubtract.close Label.dvuf3t)

/-- `DVUF3F` (R114): final collect after a forced subtract. -/
def execDvuf3f (s : State) : Out := .next (({ s with addr_hi := s.alu }.issueShift true).close Label.dvuf4)

/-- `DVUF3T` (R115): final collect after a trial subtract. -/
def execDvuf3t (s : State) : Out := .next (s.collectTrial.close Label.dvuf4)

/-- `DVUF4` (R116): writeback. -/
def execDvuf4 (s : State) : Out := .next ((s.writeback s.addr_hi s.alu_ext).close OutcomeTag.normal.label)

end Sys2Proof.Machine
end

