-- ==== Sys2Proof/Machine/Dispatch.lean ====
section
/-! DEFINITION. One arm per constructor of `Instr`: the meaning it calls. "the control-state dispatch must be exhaustive over
every defined label" (R47). -/

namespace Sys2Proof.Machine

def exec (i : Instr) (s : State) : Host.Outcome State Fault Refusal :=
  match i with
  | .divideUnsigned => Sys2Proof.Machine.execDivideUnsigned s
  | .divideSigned => Sys2Proof.Machine.execDivideSigned s
  | .and a b r => Sys2Proof.Machine.execAnd a b r s
  | .sub a b r => Sys2Proof.Machine.execSub a b r s
  | .subExtended a b r => Sys2Proof.Machine.execSubExtended a b r s
  | .shiftLeftPair b => Sys2Proof.Machine.execShiftLeftPair b s
  | .tNext => Sys2Proof.Machine.execTNext s
  | .tTrap => Sys2Proof.Machine.execTTrap s
  | .tOvf => Sys2Proof.Machine.execTOvf s
  | .tAddr => Sys2Proof.Machine.execTAddr s
  | .dvu1 => Sys2Proof.Machine.execDvu1 s
  | .dvu2 => Sys2Proof.Machine.execDvu2 s
  | .dvu3 => Sys2Proof.Machine.execDvu3 s
  | .dvuo1 => Sys2Proof.Machine.execDvuo1 s
  | .dvuo2 => Sys2Proof.Machine.execDvuo2 s
  | .dvush0 => Sys2Proof.Machine.execDvush0 s
  | .dvush1 => Sys2Proof.Machine.execDvush1 s
  | .dvusbf => Sys2Proof.Machine.execDvusbf s
  | .dvusbt => Sys2Proof.Machine.execDvusbt s
  | .dvuchk => Sys2Proof.Machine.execDvuchk s
  | .dvurst => Sys2Proof.Machine.execDvurst s
  | .dvuf2f => Sys2Proof.Machine.execDvuf2f s
  | .dvuf2t => Sys2Proof.Machine.execDvuf2t s
  | .dvuf3f => Sys2Proof.Machine.execDvuf3f s
  | .dvuf3t => Sys2Proof.Machine.execDvuf3t s
  | .dvuf4 => Sys2Proof.Machine.execDvuf4 s
  | .dvs1 => Sys2Proof.Machine.execDvs1 s
  | .dvs2 => Sys2Proof.Machine.execDvs2 s
  | .dvsp0 => Sys2Proof.Machine.execDvsp0 s
  | .dvsn1 => Sys2Proof.Machine.execDvsn1 s
  | .dvsn2 => Sys2Proof.Machine.execDvsn2 s
  | .dvsa => Sys2Proof.Machine.execDvsa s
  | .dvsc => Sys2Proof.Machine.execDvsc s
  | .dvsk => Sys2Proof.Machine.execDvsk s
  | .dvso1 => Sys2Proof.Machine.execDvso1 s
  | .dvsovx => Sys2Proof.Machine.execDvsovx s
  | .dvssh0 => Sys2Proof.Machine.execDvssh0 s
  | .dvssh1 => Sys2Proof.Machine.execDvssh1 s
  | .dvssb => Sys2Proof.Machine.execDvssb s
  | .dvsck => Sys2Proof.Machine.execDvsck s
  | .dvsrs => Sys2Proof.Machine.execDvsrs s
  | .dvsf2 => Sys2Proof.Machine.execDvsf2 s
  | .dvsf3 => Sys2Proof.Machine.execDvsf3 s
  | .dvsf4 => Sys2Proof.Machine.execDvsf4 s
  | .dvsf5 => Sys2Proof.Machine.execDvsf5 s
  | .dvsxp1 => Sys2Proof.Machine.execDvsxp1 s
  | .dvsxn1 => Sys2Proof.Machine.execDvsxn1 s
  | .dvspp2 => Sys2Proof.Machine.execDvspp2 s
  | .dvspm2 => Sys2Proof.Machine.execDvspm2 s
  | .dvspm3 => Sys2Proof.Machine.execDvspm3 s
  | .dvsmm2 => Sys2Proof.Machine.execDvsmm2 s
  | .dvsmm3 => Sys2Proof.Machine.execDvsmm3 s
  | .dvsmp2 => Sys2Proof.Machine.execDvsmp2 s
  | .dvsmp3 => Sys2Proof.Machine.execDvsmp3 s
  | .dvswb => Sys2Proof.Machine.execDvswb s
  | .normal => Sys2Proof.Machine.execNormal s
  | .divisionByZero => Sys2Proof.Machine.execDivisionByZero s
  | .overflow => Sys2Proof.Machine.execOverflow s

end Sys2Proof.Machine
end

