-- ==== Sys2Proof/Machine/Caller.lean ====
section
/-! DEFINITION. What a step of the machine runs: a move of the caller at the interface (`70_reset_and_hazards.md` R212), or the
control state whose label is in `control_state` (`40_sequencer.md` R71). -/

namespace Sys2Proof.Machine

/-- The caller's move that the next step makes: the first that waits, and only while a terminal label is held; "during an
invocation ... nothing but `step` acts on the register file" (R11, R79). -/
def State.nextMove (s : State) : Option CallerMove := if s.done then s.inputs.head? else none

/-- `s` with its first waiting move taken away. -/
def State.dropMove (s : State) : State := { s with inputs := s.inputs.tail }

/-- A move of the caller. `start` runs the operation that `op` selects (R51, R70); a write sets one field and nothing else, at
no cost in `cycles` (R11, R25, R208). -/
def makeMove (m : CallerMove) (s : State) : Out :=
  match m with
  | .start op => exec (decodeCommand op) s
  | .writeReg r v => .next (s.writeReg r v)
  | .writePcScratch v => .next { s with pc_scratch := v }
  | .writeCounter v => .next { s with counter := v }
  | .writeFlags v => .next { s with flags := Flags.unpack v }
  | .writeCycles n => if n % 2 = 0 then .next { s with cycles := n } else .refused .oddCyclesWritten
  | .writeControlState v =>
    if (decodeLabel v).isSome then .next { s with control_state := v } else .refused .undefinedLabelWritten

/-- The control state whose label is in `control_state` is executed; a code that names no label has no step (R71, R77). -/
def runLabel (s : State) : Out :=
  match decodeLabel s.control_state with
  | some i => exec i s
  | none => .fault .undefinedLabel

end Sys2Proof.Machine
end

