-- ==== Sys2Proof/Machine/Step.lean ====
section
/-! DEFINITION. One step of the machine. While a terminal label is held the caller owns the register file and its next move is
made (R11, R212); otherwise the control state in `control_state` is executed (R71). -/

namespace Sys2Proof.Machine

/-- One step. With a terminal label held and no move of the caller waiting, the terminal label is executed: it is idle. -/
def step (s : State) : Host.Outcome State Fault Refusal :=
  match s.nextMove with
  | some m => makeMove m s.dropMove
  | none => runLabel s

/-- `s` with the instruction of a table word placed where the next step takes it (`notes/assumptions/4.md`): the code in
`control_state` and no move of the caller before it, or, for the one bit of format `CMD`, a `start` pulse as the next move
while `T_NEXT` is held. A word above 6 bits is no code; 0x3F, which names no label, stands for it. -/
def State.withFetchWord (s : State) (nbits w : Nat) : State :=
  if nbits = 1 then { s with control_state := Label.tNext, inputs := [.start (BitVec.ofNat 1 w)] }
  else { s with control_state := if w < 64 then BitVec.ofNat 6 w else 0x3F#6, inputs := [] }

end Sys2Proof.Machine
end

