-- ==== Sys2Proof/Machine/Invoke.lean ====
section
/-! DEFINITION. An invocation as a whole (`40_sequencer.md` R70): the operation, then `step` until a terminal label is held. -/

namespace Sys2Proof.Machine

/-- "while rf.control_state is not terminal: step(rf)" (R70), for at most `fuel` steps. -/
def runToTerminal : Nat → State → Out
  | 0, s => .next s
  | fuel + 1, s =>
    if s.done then .next s
    else match step s with
      | .next t => runToTerminal fuel t
      | .fault r => .fault r
      | .refused r => .refused r

/-- "a model that runs under fuel needs no more than 76 steps" (R76). -/
def maxStates : Nat := 76

/-- `invoke(op, rf)` (R70). The outcome it returns is `outcomeOf` of the `control_state` it leaves. -/
def invoke (op : BitVec 1) (s : State) : Out :=
  match exec (decodeCommand op) s with
  | .next t => runToTerminal maxStates t
  | .fault r => .fault r
  | .refused r => .refused r

end Sys2Proof.Machine
end

