-- ==== Sys2Proof/Safety.lean ====
section
/-! DEFINITION. The terms in which claims about the machine are stated: what holds of every state a step leaves, the flags and
the shifted pair in the rules' words, and the cost functions of the spec (`42_divide_unsigned.md` R119, `43_divide_signed.md`
R163). No meaning calls anything of this file. -/

namespace Sys2Proof.Machine

/-! ## Whole states -/

/-- `control_state` names a label (R58, R77) and "`cycles` is even at every observation point" (R26, R30). -/
def State.Sound (s : State) : Prop := (decodeLabel s.control_state).isSome = true ∧ s.cycles % 2 = 0

/-- What lies outside the eight 16-bit registers and the flags is the same in both states. -/
def SameBesideRegsAndFlags (s t : State) : Prop :=
  t.pc_scratch = s.pc_scratch ∧ t.counter = s.counter ∧ t.control_state = s.control_state ∧ t.cycles = s.cycles ∧
    t.inputs = s.inputs

/-- Every 16-bit register holds in `t` what it holds in `s`, but the destination, if there is one, which holds `v`. -/
def StoredOnly (s t : State) (dest : Option Reg16) (v : Word) : Prop :=
  ∀ q, t.readReg q = if dest = some q then v else s.readReg q

/-! ## Flags in the words of the rules -/

/-- The flags `and(v, 0xFFFF)` leaves, "a pure test of `a` (sign into N, zero into Z)", X kept (R86). -/
def testFlags (fin : Flags) (v : Word) : Flags where
  x := fin.x
  n := decide (0x8000 ≤ v.toNat)
  z := decide (v.toNat = 0)
  v := false
  c := false

/-- The flags `sub(a, b)` leaves (R87): "`C = 1` exactly when `u(a) < u(b)`", X the same, V when "the signed difference
`s16(a) - s16(b)` lies outside -32768 to 32767". -/
def subFlags (a b : Word) : Flags where
  x := decide (a.toNat < b.toNat)
  n := decide (0x8000 ≤ (a - b).toNat)
  z := decide (a.toNat = b.toNat)
  v := decide (a.toInt - b.toInt < -32768 ∨ 32767 < a.toInt - b.toInt)
  c := decide (a.toNat < b.toNat)

/-! ## The shifted pair, half by half (R89) -/

/-- `(alu[14:0] : alu_ext[15])`. -/
def shiftedAlu (s : State) : Word := s.alu.extractLsb' 0 15 ++ BitVec.ofBool (s.alu_ext.getLsbD 15)

/-- `(alu_ext[14:0] : b)`. -/
def shiftedAluExt (s : State) (b : Bool) : Word := s.alu_ext.extractLsb' 0 15 ++ BitVec.ofBool b

/-! ## Cost (R119, R163): `m` is the number of the dividend's bit that the step brings in, 15 down to 1 -/

/-- Bit `m` of `n`. -/
def bitOf (n m : Nat) : Nat := n / 2 ^ m % 2

/-- The cycles of the loop steps of the unsigned engine that bring in the bits `m` down to 1 of the dividend `n`, from the
partial remainder `r`: 4 forced, 6 taken, 8 not taken (R119). -/
def costUSteps (n d : Nat) : Nat → Nat → Nat
  | 0, _ => 0
  | m + 1, r =>
    let k := 2 * r + bitOf n (m + 1)
    if 65536 ≤ k then 4 + costUSteps n d m (k - d)
    else if d ≤ k then 6 + costUSteps n d m (k - d)
    else 8 + costUSteps n d m k

/-- `cost_u(n, d)` (R119). -/
def costU (n d : Nat) : Nat :=
  if d = 0 then 4
  else if d ≤ n / 65536 then 10
  else 6 + costUSteps n d 15 (n / 65536) + 8

/-- The control states of the loop steps of the signed engine, on absolute values: 3 taken, 4 not taken (R163). -/
def statesSSteps (a b : Nat) : Nat → Nat → Nat
  | 0, _ => 0
  | m + 1, r =>
    let k := 2 * r + bitOf a (m + 1)
    if b ≤ k then 3 + statesSSteps a b m (k - b)
    else 4 + statesSSteps a b m k

/-- `cost_s(n, d)` (R163). -/
def costS (n d : Int) : Nat :=
  let a := n.natAbs
  let b := d.natAbs
  let pre := if n < 0 then 5 else 4
  if d = 0 then 4
  else if b ≤ a / 65536 then 2 * (2 + pre + 2)
  else 2 * (2 + pre + statesSSteps a b 15 (a / 65536) + 5 + (if 0 < d ∧ 0 ≤ n then 3 else 4))

/-- `S_16` of R117, what the sixteenth step compares with the divisor: twice the partial remainder `(n / 2) % d` of the first
fifteen steps, and the last bit of the dividend. -/
def lastShifted (n d : Nat) : Nat := 2 * (n / 2 % d) + n % 2

/-- `S_k` of R117 for the step that brings in bit `m = 16 - k` of the dividend: twice the partial remainder of the bits above,
and the bit. 65536 or more means that the step is forced; in the last step it is `lastShifted`. -/
def shiftedAt (n d m : Nat) : Nat := 2 * (n / 2 ^ (m + 1) % d) + bitOf n m

/-- What the unsigned steps that bring in the bits 15 down to `m` leave in `addr_lo`, which held `entry` before them: the value
stashed by the last of them that makes a trial subtract or, when all of them are forced, `entry` (R120). -/
def StashedByLastTrial (n d m : Nat) (entry stash : Word) : Prop :=
  (∀ i, m ≤ i → i < 16 → shiftedAt n d i < 65536 → (∀ j, m ≤ j → j < i → 65536 ≤ shiftedAt n d j) →
    stash.toNat = shiftedAt n d i) ∧
  ((∀ i, m ≤ i → i < 16 → 65536 ≤ shiftedAt n d i) → stash = entry)

/-! ## Signed division in the words of R161 -/

/-- The true quotient: `Q` if the operand signs are equal and `-Q` otherwise, `Q = |n| / |d|` (R161). -/
def trueQuotient (n d : Int) : Int :=
  if n < 0 ↔ d < 0 then (n.natAbs / d.natAbs : Nat) else -((n.natAbs / d.natAbs : Nat) : Int)

/-- The true remainder: `M` if `n >= 0` and `-M` otherwise, `M = |n| % |d|` (R161). -/
def trueRemainder (n d : Int) : Int :=
  if n < 0 then -((n.natAbs % d.natAbs : Nat) : Int) else (n.natAbs % d.natAbs : Nat)

/-- The true quotient fits in 16 signed bits (R162). -/
def FitsWord (q : Int) : Prop := -32768 ≤ q ∧ q ≤ 32767

end Sys2Proof.Machine
end

