-- ==== Sys2Proof/Certificates/Slice0/Obligations.lean ====
section
/-! DEFINITION. The statements for the provers. Statements about a control state say its whole next state, so that what the
record update does not name is unchanged. The micro-program is the spec's own (`92_eei_decisions.md` D2). -/

open Sys2Proof Sys2Proof.Machine

/-! ## Encoding -/

/-- R51, R52, R54, R56: words written out bit by bit from the tables of `30_encoding.md`; the low codes are shared. That the
operands stand as ports beside a function code is the model's reading (`notes/assumptions/5.md`), and so is the refusal of the
reserved tag (`notes/assumptions/10.md`). -/
def Obligations.CodesSelectTheRowsOfTheirFormat : Prop :=
  decode (.cmd 0b0#1) = .instr .divideUnsigned ∧ decode (.cmd 0b1#1) = .instr .divideSigned ∧
  (∀ p, decode (.alu 0b00#2 p) = .instr (.and p.dst p.src p.result)) ∧
  (∀ p, decode (.alu 0b01#2 p) = .instr (.sub p.dst p.src p.result)) ∧
  (∀ p, decode (.alu 0b10#2 p) = .instr (.subExtended p.dst p.src p.result)) ∧
  (∀ p, decode (.alu 0b11#2 p) = .instr (.shiftLeftPair p.inject)) ∧
  decode (.cs 0b000011#6) = .instr .tAddr ∧ decode (.cs 0b010101#6) = .instr .dvush0 ∧
  decode (.cs 0b101010#6) = .instr .dvssh0 ∧ decode (.cs 0b111100#6) = .instr .dvswb ∧
  decode (.out 0b00#2) = .instr .normal ∧ decode (.out 0b01#2) = .instr .divisionByZero ∧
  decode (.out 0b10#2) = .instr .overflow ∧ decode (.out 0b11#2) = .rejected .reservedOutcome

/-- R52: the 49 labels, each by its code. -/
def Obligations.EveryLabelHasItsCode : Prop :=
  decodeLabel 0x00#6 = some .tNext ∧ decodeLabel 0x01#6 = some .tTrap ∧ decodeLabel 0x02#6 = some .tOvf ∧
  decodeLabel 0x03#6 = some .tAddr ∧ decodeLabel 0x10#6 = some .dvu1 ∧ decodeLabel 0x11#6 = some .dvu2 ∧
  decodeLabel 0x12#6 = some .dvu3 ∧ decodeLabel 0x13#6 = some .dvuo1 ∧ decodeLabel 0x14#6 = some .dvuo2 ∧
  decodeLabel 0x15#6 = some .dvush0 ∧ decodeLabel 0x16#6 = some .dvush1 ∧ decodeLabel 0x17#6 = some .dvusbf ∧
  decodeLabel 0x18#6 = some .dvusbt ∧ decodeLabel 0x19#6 = some .dvuchk ∧ decodeLabel 0x1A#6 = some .dvurst ∧
  decodeLabel 0x1B#6 = some .dvuf2f ∧ decodeLabel 0x1C#6 = some .dvuf2t ∧ decodeLabel 0x1D#6 = some .dvuf3f ∧
  decodeLabel 0x1E#6 = some .dvuf3t ∧ decodeLabel 0x1F#6 = some .dvuf4 ∧ decodeLabel 0x20#6 = some .dvs1 ∧
  decodeLabel 0x21#6 = some .dvs2 ∧ decodeLabel 0x22#6 = some .dvsp0 ∧ decodeLabel 0x23#6 = some .dvsn1 ∧
  decodeLabel 0x24#6 = some .dvsn2 ∧ decodeLabel 0x25#6 = some .dvsa ∧ decodeLabel 0x26#6 = some .dvsc ∧
  decodeLabel 0x27#6 = some .dvsk ∧ decodeLabel 0x28#6 = some .dvso1 ∧ decodeLabel 0x29#6 = some .dvsovx ∧
  decodeLabel 0x2A#6 = some .dvssh0 ∧ decodeLabel 0x2B#6 = some .dvssh1 ∧ decodeLabel 0x2C#6 = some .dvssb ∧
  decodeLabel 0x2D#6 = some .dvsck ∧ decodeLabel 0x2E#6 = some .dvsrs ∧ decodeLabel 0x2F#6 = some .dvsf2 ∧
  decodeLabel 0x30#6 = some .dvsf3 ∧ decodeLabel 0x31#6 = some .dvsf4 ∧ decodeLabel 0x32#6 = some .dvsf5 ∧
  decodeLabel 0x33#6 = some .dvsxp1 ∧ decodeLabel 0x34#6 = some .dvsxn1 ∧ decodeLabel 0x35#6 = some .dvspp2 ∧
  decodeLabel 0x36#6 = some .dvspm2 ∧ decodeLabel 0x37#6 = some .dvspm3 ∧ decodeLabel 0x38#6 = some .dvsmm2 ∧
  decodeLabel 0x39#6 = some .dvsmm3 ∧ decodeLabel 0x3A#6 = some .dvsmp2 ∧ decodeLabel 0x3B#6 = some .dvsmp3 ∧
  decodeLabel 0x3C#6 = some .dvswb

/-- `30_encoding.md` section 1: no part of an instruction is lost in its code. -/
def Obligations.DecodeOfEncodeIsTheInstruction : Prop :=
  ∀ i : Instr, i.wellFormed = true → decode (encode i) = .instr i

/-- R59: a value selects at most one row of format `CS`, and it is terminal when `grp = 0` and `idx < 4`; R58: it selects none
exactly when it lies in the two gaps. -/
def Obligations.EveryLabelCodeSelectsAtMostOneRow : Prop :=
  ∀ v : LabelCode, (∀ r₁ ∈ csRows, ∀ r₂ ∈ csRows, r₁.selects v = true → r₂.selects v = true → r₁ = r₂) ∧
    (isTerminalLabel v = true ↔ labelGrp v = 0#2 ∧ (labelIdx v).toNat < 4) ∧
    (decodeLabel v = none ↔ (4 ≤ v.toNat ∧ v.toNat ≤ 15) ∨ 61 ≤ v.toNat)

/-! ## The step -/

/-- R71, R72, `notes/assumptions/3.md`: while the block runs, and while it idles with no move of the caller waiting, a step is
the execution of the instruction that the code in `control_state` selects, with nothing around it. -/
def Obligations.StepExecutesTheLabelHeld : Prop :=
  ∀ (s : State) (i : Instr), (s.done = false ∨ s.inputs = []) → decodeLabel s.control_state = some i → step s = exec i s

/-- R77: a code that names no label has no step; the model says so by a fault. -/
def Obligations.UndefinedLabelHasNoStep : Prop :=
  ∀ s : State, (4 ≤ s.control_state.toNat ∧ s.control_state.toNat ≤ 15) ∨ 61 ≤ s.control_state.toNat →
    step s = .fault .undefinedLabel

/-- R11, R25, R212, `notes/assumptions/3.md`: while a terminal label is held, the first waiting move of the caller is made: a
pulse of `start` runs the operation that `op` selects, a write sets one field, and the two illegal writes are refused. -/
def Obligations.IdleStepMakesTheCallersMove : Prop :=
  ∀ (s : State) (rest : List CallerMove), s.done = true →
    (step { s with inputs := .start 0#1 :: rest } = exec .divideUnsigned { s with inputs := rest }) ∧
    (step { s with inputs := .start 1#1 :: rest } = exec .divideSigned { s with inputs := rest }) ∧
    (∀ r v, ∃ t, step { s with inputs := .writeReg r v :: rest } = .next t ∧ StoredOnly s t (some r) v ∧
      t.flags = s.flags ∧ SameBesideRegsAndFlags { s with inputs := rest } t) ∧
    (∀ v, step { s with inputs := .writePcScratch v :: rest } = .next { s with inputs := rest, pc_scratch := v }) ∧
    (∀ v, step { s with inputs := .writeCounter v :: rest } = .next { s with inputs := rest, counter := v }) ∧
    (∀ f : Flags, step { s with inputs := .writeFlags f.pack :: rest } = .next { s with inputs := rest, flags := f }) ∧
    (∀ n, n % 2 = 0 → step { s with inputs := .writeCycles n :: rest } = .next { s with inputs := rest, cycles := n }) ∧
    (∀ n, n % 2 = 1 → step { s with inputs := .writeCycles n :: rest } = .refused .oddCyclesWritten) ∧
    (∀ v, (decodeLabel v).isSome = true →
      step { s with inputs := .writeControlState v :: rest } = .next { s with inputs := rest, control_state := v }) ∧
    (∀ v, decodeLabel v = none → step { s with inputs := .writeControlState v :: rest } = .refused .undefinedLabelWritten)

/-! ## Reset, the operations, the terminal labels, the outcomes -/

/-- R200: reset writes `control_state` and `cycles` and nothing else, from whatever state, and the machine right after reset is
such a state. The values of its other fields are the model's (`notes/assumptions/1.md`) and are not stated. -/
def Obligations.ResetHoldsNextLabelAndZeroCycles : Prop :=
  (∀ s : State, s.applyReset = { s with control_state := 0x00#6, cycles := 0 } ∧ s.applyReset.done = true) ∧
    State.reset.control_state = 0x00#6 ∧ State.reset.cycles = 0 ∧ State.reset.applyReset = State.reset

/-- `start` (R51, R70, R212): the entry label is written, at no cost and with nothing else changed. -/
def Obligations.StartWritesTheEntryLabel : Prop :=
  ∀ s : State, s.done = true →
    exec .divideUnsigned s = .next { s with control_state := 0x10#6 } ∧
    exec .divideSigned s = .next { s with control_state := 0x20#6 }

/-- `93_implementation_defined.md` U8: `start` while a non-terminal label is held is refused. -/
def Obligations.StartWhileRunningIsRefused : Prop :=
  ∀ s : State, s.done = false →
    exec .divideUnsigned s = .refused .startWhileRunning ∧ exec .divideSigned s = .refused .startWhileRunning

/-- R72, R53: a terminal label has no action and adds no cycles; the four are the codes 0x00 to 0x03, at which `done` holds. -/
def Obligations.TerminalLabelsHaveNoAction : Prop :=
  ∀ s : State, exec .tNext s = .next s ∧ exec .tTrap s = .next s ∧ exec .tOvf s = .next s ∧ exec .tAddr s = .next s ∧
    (s.done = true ↔ s.control_state.toNat ≤ 3) ∧ (s.done = true → s.inputs = [] → step s = .next s)

/-- R54, R73, `notes/assumptions/6.md`: an outcome ends the invocation in its terminal label, from which the `outcome` port and
`outcome_of` give its tag back, and changes nothing else. -/
def Obligations.OutcomeIsTheTerminalLabel : Prop :=
  ∀ s : State,
    exec .normal s = .next { s with control_state := 0x00#6 } ∧
    exec .divisionByZero s = .next { s with control_state := 0x01#6 } ∧
    exec .overflow s = .next { s with control_state := 0x02#6 } ∧
    (∀ o : OutcomeTag, outcomeOf (s.report o).control_state = some o ∧ (s.report o).done = true ∧
      (s.report o).outcomePort = match o with | .normal => 0#2 | .divisionByZero => 1#2 | .overflow => 2#2) ∧
    (∀ l, outcomeOf l ≠ none → isTerminalLabel l = true) ∧ outcomeOf 0x03#6 = none

/-! ## Registers and flags -/

/-- R19, R90: eight registers of their own storage, and the two wired constants. -/
def Obligations.RegistersAreSeparateStorage : Prop :=
  ∀ s : State,
    (s.readReg .dividend_hi = s.dividend_hi ∧ s.readReg .dividend_lo = s.dividend_lo ∧ s.readReg .divisor = s.divisor ∧
      s.readReg .alu = s.alu ∧ s.readReg .alu_ext = s.alu_ext ∧ s.readReg .alu_buf = s.alu_buf ∧
      s.readReg .addr_hi = s.addr_hi ∧ s.readReg .addr_lo = s.addr_lo) ∧
    (∀ r v, StoredOnly s (s.writeReg r v) (some r) v ∧ (s.writeReg r v).flags = s.flags ∧
      SameBesideRegsAndFlags s (s.writeReg r v)) ∧
    (∀ r, s.operand (.reg r) = s.readReg r) ∧ s.operand .zeros = 0x0000#16 ∧ s.operand .ones = 0xFFFF#16

/-- R23, R55. -/
def Obligations.FlagsPackInTheListedOrder : Prop :=
  (∀ f : Flags, f.pack.toNat = f.x.toNat * 16 + f.n.toNat * 8 + f.z.toNat * 4 + f.v.toNat * 2 + f.c.toNat ∧
    Flags.unpack f.pack = f) ∧ ∀ v : BitVec 5, (Flags.unpack v).pack = v

/-! ## The ALU primitives -/

/-- R86, for every operand source and every place of the result. That a primitive is executed alone, with its result placed by
the instruction and `control_state` and `cycles` left alone, is the model's reading (`notes/assumptions/5.md`). -/
def Obligations.AndGivesResultAndFlags : Prop :=
  ∀ (s : State) (dst src : AluOperand) (dest : Option Reg16), resultAllowed dest = true →
    ∃ t, exec (.and dst src dest) s = .next t ∧
      StoredOnly s t dest (s.operand dst &&& s.operand src) ∧
      t.flags = { x := s.flags.x, n := (s.operand dst &&& s.operand src).getLsbD 15,
                  z := decide ((s.operand dst &&& s.operand src).toNat = 0), v := false, c := false } ∧
      SameBesideRegsAndFlags s t

/-- R87, for every operand source and every place of the result. That a primitive is executed alone, with its result placed by
the instruction and `control_state` and `cycles` left alone, is the model's reading (`notes/assumptions/5.md`). -/
def Obligations.SubGivesResultAndFlags : Prop :=
  ∀ (s : State) (dst src : AluOperand) (dest : Option Reg16), resultAllowed dest = true →
    ∃ (t : State) (r : Word), exec (.sub dst src dest) s = .next t ∧
      r.toNat = ((s.operand dst).toNat + 65536 - (s.operand src).toNat) % 65536 ∧
      StoredOnly s t dest r ∧
      t.flags.x = t.flags.c ∧
      (t.flags.c = true ↔ (s.operand dst).toNat < (s.operand src).toNat) ∧
      (t.flags.n = true ↔ 0x8000 ≤ r.toNat) ∧ (t.flags.z = true ↔ r.toNat = 0) ∧
      (t.flags.v = true ↔ (s.operand dst).toInt - (s.operand src).toInt < -32768 ∨
        32767 < (s.operand dst).toInt - (s.operand src).toInt) ∧
      SameBesideRegsAndFlags s t

/-- R88, for every operand source and every place of the result. That a primitive is executed alone, with its result placed by
the instruction and `control_state` and `cycles` left alone, is the model's reading (`notes/assumptions/5.md`). -/
def Obligations.SubExtendedSubtractsTheResidentExtend : Prop :=
  ∀ (s : State) (dst src : AluOperand) (dest : Option Reg16), resultAllowed dest = true →
    ∃ (t : State) (r : Word), exec (.subExtended dst src dest) s = .next t ∧
      r.toNat = ((s.operand dst).toNat + 131072 - (s.operand src).toNat - s.flags.x.toNat) % 65536 ∧
      StoredOnly s t dest r ∧ t.flags = s.flags ∧ SameBesideRegsAndFlags s t

/-- R89. That the primitive is executed alone, with `control_state` and `cycles` left alone, is the model's reading
(`notes/assumptions/5.md`). -/
def Obligations.ShiftLeftPairShiftsThePair : Prop :=
  ∀ (s : State) (b : Bool), ∃ t, exec (.shiftLeftPair b) s = .next t ∧
    t.workingPair.toNat = (2 * s.workingPair.toNat + b.toNat) % 2 ^ 32 ∧
    t = { s with alu := shiftedAlu s, alu_ext := shiftedAluExt s b }

/-- R12, R13: the result of a primitive never goes to the divisor or to a dividend register; a term that says so is refused. -/
def Obligations.PrimitivesNeverWriteTheOperandRegisters : Prop :=
  ∀ (s : State) (dst src : AluOperand) (r : Reg16), (r = .divisor ∨ r = .dividend_hi ∨ r = .dividend_lo) →
    exec (.and dst src (some r)) s = .refused .resultNotWritable ∧
    exec (.sub dst src (some r)) s = .refused .resultNotWritable ∧
    exec (.subExtended dst src (some r)) s = .refused .resultNotWritable

/-! ## The unsigned engine, state by state -/

/-- R101, R102, R103. -/
def Obligations.UnsignedSetupAndPretestStates : Prop :=
  ∀ s : State,
    exec .dvu1 s = .next { s with
      alu_buf := s.divisor, flags := testFlags s.flags s.divisor, control_state := 0x11#6, cycles := s.cycles + 2 } ∧
    exec .dvu2 s = .next { s with
      alu := s.dividend_hi, alu_ext := s.dividend_lo, flags := subFlags s.dividend_hi s.alu_buf,
      control_state := if s.flags.z = true then 0x01#6 else 0x12#6, cycles := s.cycles + 2 } ∧
    exec .dvu3 s = .next { s with
      counter := 16#32, control_state := if s.flags.c = false then 0x13#6 else 0x15#6, cycles := s.cycles + 2 }

/-- R104, R105. -/
def Obligations.UnsignedOverflowExitStates : Prop :=
  ∀ s : State,
    exec .dvuo1 s = .next { s with control_state := 0x14#6, cycles := s.cycles + 2 } ∧
    exec .dvuo2 s = .next { s with control_state := 0x02#6, cycles := s.cycles + 2 }

/-- R106, R107. -/
def Obligations.UnsignedShiftStates : Prop :=
  ∀ s : State, ∀ next : LabelCode,
    next = (if s.counter.toNat = 1 then (if s.alu.getLsbD 15 = true then 0x1B#6 else 0x1C#6)
            else (if s.alu.getLsbD 15 = true then 0x17#6 else 0x18#6)) →
    exec .dvush0 s = .next { s with
      alu := shiftedAlu s, alu_ext := shiftedAluExt s false, counter := s.counter - 1, control_state := next,
      cycles := s.cycles + 2 } ∧
    exec .dvush1 s = .next { s with
      alu := shiftedAlu s, alu_ext := shiftedAluExt s true, counter := s.counter - 1, control_state := next,
      cycles := s.cycles + 2 }

/-- R108, R109, R112, R113. -/
def Obligations.UnsignedSubtractStates : Prop :=
  ∀ s : State,
    exec .dvusbf s = .next { s with
      alu := s.alu - s.alu_buf, flags := subFlags s.alu s.alu_buf, control_state := 0x16#6, cycles := s.cycles + 2 } ∧
    exec .dvusbt s = .next { s with
      addr_lo := s.alu, alu := s.alu - s.alu_buf, flags := subFlags s.alu s.alu_buf, control_state := 0x19#6,
      cycles := s.cycles + 2 } ∧
    exec .dvuf2f s = .next { s with
      alu := s.alu - s.alu_buf, flags := subFlags s.alu s.alu_buf, control_state := 0x1D#6, cycles := s.cycles + 2 } ∧
    exec .dvuf2t s = .next { s with
      addr_lo := s.alu, alu := s.alu - s.alu_buf, flags := subFlags s.alu s.alu_buf, control_state := 0x1E#6,
      cycles := s.cycles + 2 }

/-- R110, R111. -/
def Obligations.UnsignedCheckAndRestoreStates : Prop :=
  ∀ s : State,
    exec .dvuchk s = .next { s with
      control_state := if s.flags.c = false then 0x16#6 else 0x1A#6, cycles := s.cycles + 2 } ∧
    exec .dvurst s = .next { s with alu := s.addr_lo, control_state := 0x15#6, cycles := s.cycles + 2 }

/-- R114, R115, R116. -/
def Obligations.UnsignedCollectAndWritebackStates : Prop :=
  ∀ s : State,
    exec .dvuf3f s = .next { s with
      addr_hi := s.alu, alu := shiftedAlu s, alu_ext := shiftedAluExt s true, control_state := 0x1F#6,
      cycles := s.cycles + 2 } ∧
    exec .dvuf3t s = .next { s with
      addr_hi := if s.flags.c = true then s.addr_lo else s.alu, alu := shiftedAlu s,
      alu_ext := shiftedAluExt s (if s.flags.c = true then false else true), control_state := 0x1F#6,
      cycles := s.cycles + 2 } ∧
    exec .dvuf4 s = .next { s with
      dividend_hi := s.addr_hi, dividend_lo := s.alu_ext, control_state := 0x00#6, cycles := s.cycles + 2 }

/-! ## The signed engine, state by state -/

/-- R131, R132. -/
def Obligations.SignedSetupStates : Prop :=
  ∀ s : State,
    exec .dvs1 s = .next { s with
      alu_buf := s.divisor, flags := testFlags s.flags s.divisor, control_state := 0x21#6, cycles := s.cycles + 2 } ∧
    exec .dvs2 s = .next { s with
      alu_buf := if s.flags.n = true then 0 - s.alu_buf else s.alu_buf, alu := s.dividend_hi, alu_ext := s.dividend_lo,
      flags := subFlags 0 s.alu_buf,
      control_state := if s.flags.z = true then 0x01#6 else if s.dividend_hi.getLsbD 15 = true then 0x23#6 else 0x22#6,
      cycles := s.cycles + 2 }

/-- R133, R134, R135, R136. -/
def Obligations.SignedAbsolutizationStates : Prop :=
  ∀ s : State,
    exec .dvsp0 s = .next { s with control_state := 0x25#6, cycles := s.cycles + 2 } ∧
    exec .dvsn1 s = .next { s with
      alu_ext := 0 - s.alu_ext, flags := subFlags 0 s.alu_ext, control_state := 0x24#6, cycles := s.cycles + 2 } ∧
    exec .dvsn2 s = .next { s with
      alu := 0 - s.alu - (if s.flags.x = true then 1 else 0), control_state := 0x25#6, cycles := s.cycles + 2 } ∧
    exec .dvsa s = .next { s with
      flags := testFlags s.flags s.alu, control_state := 0x26#6, cycles := s.cycles + 2 }

/-- R137, R138, R139, R140. -/
def Obligations.SignedEarlyOverflowStates : Prop :=
  ∀ s : State,
    exec .dvsc s = .next { s with
      flags := subFlags s.alu s.alu_buf, control_state := 0x27#6, cycles := s.cycles + 2 } ∧
    exec .dvsk s = .next { s with
      counter := 16#32, control_state := if s.flags.c = false then 0x28#6 else 0x2A#6, cycles := s.cycles + 2 } ∧
    exec .dvso1 s = .next { s with control_state := 0x29#6, cycles := s.cycles + 2 } ∧
    exec .dvsovx s = .next { s with control_state := 0x02#6, cycles := s.cycles + 2 }

/-- R141, R142. -/
def Obligations.SignedShiftStates : Prop :=
  ∀ s : State,
    exec .dvssh0 s = .next { s with
      alu := shiftedAlu s, alu_ext := shiftedAluExt s false, counter := s.counter - 1,
      control_state := if s.counter.toNat = 1 then 0x2F#6 else 0x2C#6, cycles := s.cycles + 2 } ∧
    exec .dvssh1 s = .next { s with
      alu := shiftedAlu s, alu_ext := shiftedAluExt s true, counter := s.counter - 1,
      control_state := if s.counter.toNat = 1 then 0x2F#6 else 0x2C#6, cycles := s.cycles + 2 }

/-- R143, R144, R145, R146. -/
def Obligations.SignedTrialCheckAndRestoreStates : Prop :=
  ∀ s : State,
    exec .dvssb s = .next { s with
      addr_lo := s.alu, alu := s.alu - s.alu_buf, flags := subFlags s.alu s.alu_buf, control_state := 0x2D#6,
      cycles := s.cycles + 2 } ∧
    exec .dvsck s = .next { s with
      control_state := if s.flags.c = false then 0x2B#6 else 0x2E#6, cycles := s.cycles + 2 } ∧
    exec .dvsrs s = .next { s with alu := s.addr_lo, control_state := 0x2A#6, cycles := s.cycles + 2 } ∧
    exec .dvsf2 s = .next { s with
      addr_lo := s.alu, alu := s.alu - s.alu_buf, flags := subFlags s.alu s.alu_buf, control_state := 0x30#6,
      cycles := s.cycles + 2 }

/-- R147, R148, R149, R150, R151. -/
def Obligations.SignedFinishingStates : Prop :=
  ∀ s : State,
    exec .dvsf3 s = .next { s with
      addr_hi := if s.flags.c = true then s.addr_lo else s.alu, alu := shiftedAlu s,
      alu_ext := shiftedAluExt s (if s.flags.c = true then false else true), control_state := 0x31#6,
      cycles := s.cycles + 2 } ∧
    exec .dvsf4 s = .next { s with
      flags := testFlags s.flags s.divisor, control_state := 0x32#6, cycles := s.cycles + 2 } ∧
    exec .dvsf5 s = .next { s with
      flags := testFlags s.flags s.dividend_hi, control_state := if s.flags.n = true then 0x34#6 else 0x33#6,
      cycles := s.cycles + 2 } ∧
    exec .dvsxp1 s = .next { s with
      flags := testFlags s.flags s.alu_ext, control_state := if s.flags.n = true then 0x36#6 else 0x35#6,
      cycles := s.cycles + 2 } ∧
    exec .dvsxn1 s = .next { s with
      flags := testFlags s.flags s.alu_ext, control_state := if s.flags.n = true then 0x38#6 else 0x3A#6,
      cycles := s.cycles + 2 }

/-- R152, R153, R154. -/
def Obligations.FixupStatesOfPositiveDivisor : Prop :=
  ∀ s : State,
    exec .dvspp2 s = .next { s with
      addr_lo := s.alu_ext, control_state := if s.flags.n = true then 0x29#6 else 0x3C#6, cycles := s.cycles + 2 } ∧
    exec .dvspm2 s = .next { s with
      addr_lo := 0 - s.alu_ext, flags := subFlags 0 s.alu_ext, control_state := 0x37#6, cycles := s.cycles + 2 } ∧
    exec .dvspm3 s = .next { s with
      addr_hi := 0 - s.addr_hi, flags := subFlags 0 s.addr_hi,
      control_state := if s.flags.n = false ∧ s.flags.z = false then 0x29#6 else 0x3C#6, cycles := s.cycles + 2 }

/-- R155, R156, R157, R158, R159. -/
def Obligations.FixupStatesOfNegativeDivisorAndWriteback : Prop :=
  ∀ s : State,
    exec .dvsmm2 s = .next { s with addr_lo := s.alu_ext, control_state := 0x39#6, cycles := s.cycles + 2 } ∧
    exec .dvsmm3 s = .next { s with
      addr_hi := 0 - s.addr_hi, flags := subFlags 0 s.addr_hi,
      control_state := if s.flags.n = true then 0x29#6 else 0x3C#6, cycles := s.cycles + 2 } ∧
    exec .dvsmp2 s = .next { s with
      addr_lo := 0 - s.alu_ext, flags := subFlags 0 s.alu_ext, control_state := 0x3B#6, cycles := s.cycles + 2 } ∧
    exec .dvsmp3 s = .next { s with
      control_state := if s.flags.n = false ∧ s.flags.z = false then 0x29#6 else 0x3C#6, cycles := s.cycles + 2 } ∧
    exec .dvswb s = .next { s with
      dividend_hi := s.addr_hi, dividend_lo := s.addr_lo, control_state := 0x00#6, cycles := s.cycles + 2 }

/-! ## Rules of the whole machine -/

/-- Invariant: from every state in which `control_state` names a label and `cycles` is even, a step leaves such a state. -/
def Obligations.StepKeepsLabelDefinedAndCyclesEven : Prop :=
  ∀ s t : State, s.Sound → step s = .next t → t.Sound

/-- The invariant holds after reset. -/
def Obligations.ResetIsSound : Prop := State.reset.Sound

/-- While the block runs, a step from such a state always answers a next state: it neither faults nor refuses (R76: "there is
no stuck state and no hang on a defined label"). -/
def Obligations.RunningStepNeverStops : Prop :=
  ∀ s : State, s.Sound → s.done = false → ∃ t, step s = .next t

/-- R13. -/
def Obligations.DivisorIsNeverWrittenByAnEngine : Prop :=
  ∀ s t : State, s.done = false → step s = .next t → t.divisor = s.divisor

/-- R14: no control state reads or writes `pc_scratch`. -/
def Obligations.PcScratchIsNeitherReadNorWritten : Prop :=
  ∀ (s t : State) (v : Long), s.done = false → step s = .next t →
    step { s with pc_scratch := v } = .next { t with pc_scratch := v }

/-- R208, R26: every executed control state adds exactly 2 to `cycles` and none reads it; a terminal label adds 0. -/
def Obligations.EveryControlStateAddsTwoCycles : Prop :=
  (∀ (s t : State) (n : Nat), s.done = false → step s = .next t →
    t.cycles = s.cycles + 2 ∧ step { s with cycles := n } = .next { t with cycles := n + 2 }) ∧
  ∀ (s t : State), s.done = true → s.inputs = [] → step s = .next t → t.cycles = s.cycles

/-- R79, `notes/assumptions/3.md`: while the block runs, no move of the caller is made and none has an influence. -/
def Obligations.RunningBlockIgnoresTheCaller : Prop :=
  ∀ (s t : State) (l : List CallerMove), s.done = false → step s = .next t →
    step { s with inputs := l } = .next { t with inputs := l }

/-- R12: only the two writeback states write a dividend register, and they lead to `T_NEXT` only. -/
def Obligations.OnlyWritebackChangesTheDividend : Prop :=
  ∀ s t : State, s.done = false → step s = .next t →
    (t.dividend_hi = s.dividend_hi ∧ t.dividend_lo = s.dividend_lo) ∨
      ((s.control_state = 0x1F#6 ∨ s.control_state = 0x3C#6) ∧ t.control_state = 0x00#6)

/-- R181, R182, R183: which control states end an invocation, and with which outcome; `T_ADDR` is never entered (R53). -/
def Obligations.OnlyNamedStatesEndAnInvocation : Prop :=
  ∀ s t : State, s.done = false → step s = .next t → t.done = true →
    (outcomeOf t.control_state = some .divisionByZero ∧ (s.control_state = 0x11#6 ∨ s.control_state = 0x21#6) ∧
      s.flags.z = true) ∨
    (outcomeOf t.control_state = some .overflow ∧ (s.control_state = 0x14#6 ∨ s.control_state = 0x29#6)) ∨
    (outcomeOf t.control_state = some .normal ∧ (s.control_state = 0x1F#6 ∨ s.control_state = 0x3C#6))

/-- R74: "No choice reads `fin.V` or `fin.X`": the successor is the same whatever the two flags hold. -/
def Obligations.SuccessorIgnoresOverflowAndExtend : Prop :=
  ∀ (s t : State) (x v : Bool), s.done = false → step s = .next t →
    ∃ u, step { s with flags := { s.flags with x := x, v := v } } = .next u ∧ u.control_state = t.control_state

/-- R93: two control states negate the 32-bit working pair, the X of the first resident for the second. -/
def Obligations.TwoLimbNegateNegatesThePair : Prop :=
  ∀ s : State, s.control_state = 0x23#6 →
    ∃ u t, step s = .next u ∧ step u = .next t ∧ t.control_state = 0x25#6 ∧ t.cycles = s.cycles + 4 ∧
      t.workingPair.toNat = (2 ^ 32 - s.workingPair.toNat) % 2 ^ 32

/-! ## Invocations -/

/-- R76 and R70: from the operation on, at most 67 (unsigned) or 76 (signed) steps lead to a terminal label, each of the
states before it being a running one and costing 2 cycles; `invoke` gives the state in which that run ends. -/
def Obligations.EveryInvocationReachesATerminalLabel : Prop :=
  ∀ (s : State) (op : BitVec 1), s.done = true →
    ∃ (e t : State) (k : Nat), exec (decodeCommand op) s = .next e ∧ k ≤ (if op = 0#1 then 67 else 76) ∧
      Host.Core.run Sys2Proof.core k e = .next t ∧ t.done = true ∧ t.cycles = s.cycles + 2 * k ∧ invoke op s = .next t ∧
      ∀ j, j < k → ∃ u, Host.Core.run Sys2Proof.core j e = .next u ∧ u.done = false

/-- R118, R100: the result law of the unsigned engine, division by zero before overflow. -/
def Obligations.UnsignedDivisionResult : Prop :=
  ∀ (s : State), s.done = true → ∃ t, invoke 0#1 s = .next t ∧ t.divisor = s.divisor ∧
    (if s.divisor.toNat = 0 then
      outcomeOf t.control_state = some .divisionByZero ∧ t.dividend = s.dividend
    else if s.divisor.toNat ≤ s.dividend_hi.toNat then
      outcomeOf t.control_state = some .overflow ∧ t.dividend = s.dividend
    else
      outcomeOf t.control_state = some .normal ∧
        t.dividend_lo.toNat = s.dividend.toNat / s.divisor.toNat ∧
        t.dividend_hi.toNat = s.dividend.toNat % s.divisor.toNat)

/-- R119: the cycles of an unsigned invocation. -/
def Obligations.UnsignedDivisionCost : Prop :=
  ∀ s : State, s.done = true → ∃ t, invoke 0#1 s = .next t ∧
    t.cycles = s.cycles + costU s.dividend.toNat s.divisor.toNat

/-- R120: what the unsigned engine leaves in every register beside the dividend. The flags and scratch values are those of the
spec's micro-program and no contract of the original (`notes/assumptions/2.md`). -/
def Obligations.UnsignedEndState : Prop :=
  ∀ s : State, s.done = true → ∃ t, invoke 0#1 s = .next t ∧ t.divisor = s.divisor ∧
    t.pc_scratch = s.pc_scratch ∧ t.alu_buf = s.divisor ∧
    (if s.divisor.toNat = 0 ∨ s.divisor.toNat ≤ s.dividend_hi.toNat then
      t.workingPair = s.dividend ∧ t.addr_hi = s.addr_hi ∧ t.addr_lo = s.addr_lo ∧
        t.counter = (if s.divisor.toNat = 0 then s.counter else 16#32) ∧ t.flags = subFlags s.dividend_hi s.divisor
    else
      t.alu_ext = t.dividend_lo ∧ t.addr_hi = t.dividend_hi ∧ t.counter = 0#32 ∧
        t.flags = subFlags (BitVec.ofNat 16 (lastShifted s.dividend.toNat s.divisor.toNat)) s.divisor ∧
        t.alu = BitVec.ofNat 16 (2 * (lastShifted s.dividend.toNat s.divisor.toNat + 65536 - s.divisor.toNat)) ∧
        (lastShifted s.dividend.toNat s.divisor.toNat < 65536 →
          t.addr_lo.toNat = lastShifted s.dividend.toNat s.divisor.toNat) ∧
        StashedByLastTrial s.dividend.toNat s.divisor.toNat 0 s.addr_lo t.addr_lo)

/-- R161, R162, R130: the result law of the signed engine; `Overflow` exactly when the true quotient does not fit. -/
def Obligations.SignedDivisionResult : Prop :=
  ∀ (s : State), s.done = true → ∃ t, invoke 1#1 s = .next t ∧ t.divisor = s.divisor ∧
    (s.divisor.toInt = 0 → outcomeOf t.control_state = some .divisionByZero ∧ t.dividend = s.dividend) ∧
    (s.divisor.toInt ≠ 0 → ¬ FitsWord (trueQuotient s.dividend.toInt s.divisor.toInt) →
      outcomeOf t.control_state = some .overflow ∧ t.dividend = s.dividend) ∧
    (s.divisor.toInt ≠ 0 → FitsWord (trueQuotient s.dividend.toInt s.divisor.toInt) →
      outcomeOf t.control_state = some .normal ∧
        t.dividend_lo.toInt = trueQuotient s.dividend.toInt s.divisor.toInt ∧
        t.dividend_hi.toInt = trueRemainder s.dividend.toInt s.divisor.toInt)

/-- R161: the result is division truncating toward zero: `n = q * d + m`, `|m| < |d|`, and `m` is zero or has the sign of `n`. -/
def Obligations.SignedResultTruncatesTowardZero : Prop :=
  ∀ s t : State, s.done = true → s.divisor.toInt ≠ 0 → invoke 1#1 s = .next t →
    outcomeOf t.control_state = some .normal →
    s.dividend.toInt = t.dividend_lo.toInt * s.divisor.toInt + t.dividend_hi.toInt ∧
      t.dividend_hi.toInt.natAbs < s.divisor.toInt.natAbs ∧
      (t.dividend_hi.toInt = 0 ∨ (t.dividend_hi.toInt < 0 ↔ s.dividend.toInt < 0))

/-- R163: the cycles of a signed invocation. The figures of the overflow exits are the spec's choice (D12, D13). -/
def Obligations.SignedDivisionCost : Prop :=
  ∀ s : State, s.done = true → ∃ t, invoke 1#1 s = .next t ∧
    t.cycles = s.cycles + costS s.dividend.toInt s.divisor.toInt

/-- R164: what the signed engine leaves in every register beside the dividend; `alu`, of which R164 is silent on the way through
the finish, follows from the last subtract and the collect's shift (R146, R147). The flags and scratch values are those of the
spec's micro-program and no contract of the original (`notes/assumptions/2.md`). -/
def Obligations.SignedEndState : Prop :=
  ∀ s : State, s.done = true → ∃ t, invoke 1#1 s = .next t ∧ t.divisor = s.divisor ∧
    t.pc_scratch = s.pc_scratch ∧ t.alu_buf.toNat = s.divisor.toInt.natAbs ∧
    (if s.divisor.toInt = 0 then
      t.workingPair = s.dividend ∧ t.counter = s.counter ∧ t.addr_hi = s.addr_hi ∧ t.addr_lo = s.addr_lo ∧
        t.flags = ⟨false, false, true, false, false⟩
    else if s.divisor.toInt.natAbs ≤ s.dividend.toInt.natAbs / 65536 then
      t.workingPair.toNat = s.dividend.toInt.natAbs ∧ t.counter = 16#32 ∧ t.addr_hi = s.addr_hi ∧
        t.addr_lo = s.addr_lo ∧ t.flags = subFlags t.alu t.alu_buf
    else
      t.alu_ext.toNat = s.dividend.toInt.natAbs / s.divisor.toInt.natAbs ∧ t.counter = 0#32 ∧
        t.alu = BitVec.ofNat 16
          (2 * (lastShifted s.dividend.toInt.natAbs s.divisor.toInt.natAbs + 65536 - s.divisor.toInt.natAbs)) ∧
        t.addr_hi.toInt = trueRemainder s.dividend.toInt s.divisor.toInt ∧
        t.addr_lo = BitVec.ofInt 16 (trueQuotient s.dividend.toInt s.divisor.toInt) ∧
        t.flags =
          if s.dividend.toInt < 0 then subFlags 0 (0 - t.addr_hi)
          else if s.divisor.toInt < 0 then subFlags 0 t.alu_ext
          else testFlags (subFlags (BitVec.ofNat 16 (lastShifted s.dividend.toInt.natAbs s.divisor.toInt.natAbs))
            t.alu_buf) t.alu_ext)

/-- R160: "`alu[15] = 0` before every signed shift", at every state of every signed invocation. -/
def Obligations.SignedShiftNeverDropsABit : Prop :=
  ∀ (s e t : State) (k : Nat), s.done = true → exec .divideSigned s = .next e → runToTerminal k e = .next t →
    (t.control_state = 0x2A#6 ∨ t.control_state = 0x2B#6) → t.alu.getLsbD 15 = false

/-- R165: the dividend -2^31 overflows early for every divisor but zero, in 18 cycles. The figure 18 is the spec's choice D12, at
the default of `S_EARLY_OVF_IDLE` (`notes/assumptions/2.md`). -/
def Obligations.MostNegativeDividendOverflowsEarly : Prop :=
  ∀ s : State, s.done = true → s.dividend = 0x80000000#32 → s.divisor ≠ 0#16 →
    ∃ t, invoke 1#1 s = .next t ∧ outcomeOf t.control_state = some .overflow ∧ t.dividend = s.dividend ∧
      t.cycles = s.cycles + 18

/-- R119, R163, R211: normal completion costs 74 to 134 cycles (unsigned) and 120 to 152 (signed). -/
def Obligations.NormalCompletionCostsWithinBounds : Prop :=
  ∀ (s t : State) (op : BitVec 1), s.done = true → invoke op s = .next t → outcomeOf t.control_state = some .normal →
    s.cycles + (if op = 0#1 then 74 else 120) ≤ t.cycles ∧ t.cycles ≤ s.cycles + (if op = 0#1 then 134 else 152)

/-- R24, R32: the outcome, the dividend registers, the cost, the flags and `alu`, `alu_ext`, `alu_buf` at the end depend on the
dividend and the divisor alone: on no other value found at entry. For the flags, `alu`, `alu_ext` and `alu_buf` this is said of the
spec's micro-program and is no contract of the original (`notes/assumptions/2.md`). -/
def Obligations.InvocationDependsOnItsOperandsAlone : Prop :=
  ∀ (s₁ s₂ : State) (op : BitVec 1), s₁.done = true → s₂.done = true → s₁.dividend_hi = s₂.dividend_hi →
    s₁.dividend_lo = s₂.dividend_lo → s₁.divisor = s₂.divisor →
    ∃ t₁ t₂, invoke op s₁ = .next t₁ ∧ invoke op s₂ = .next t₂ ∧ t₁.control_state = t₂.control_state ∧
      t₁.dividend_hi = t₂.dividend_hi ∧ t₁.dividend_lo = t₂.dividend_lo ∧ t₁.flags = t₂.flags ∧ t₁.alu = t₂.alu ∧
      t₁.alu_ext = t₂.alu_ext ∧ t₁.alu_buf = t₂.alu_buf ∧ t₁.cycles + s₂.cycles = t₂.cycles + s₁.cycles
end

