-- ==== Sys2Proof/Laws/State.lean ====
section
/-! SUPPORT. What each named update of a state does to each field: one lemma per field per update, by `rfl`, for the simp set. -/

namespace Sys2Proof.Machine

variable (s : State)

/-! `close` -/

@[simp] theorem State.close_dividend_hi (next : LabelCode) : (s.close next).dividend_hi = s.dividend_hi := rfl
@[simp] theorem State.close_dividend_lo (next : LabelCode) : (s.close next).dividend_lo = s.dividend_lo := rfl
@[simp] theorem State.close_divisor (next : LabelCode) : (s.close next).divisor = s.divisor := rfl
@[simp] theorem State.close_pc_scratch (next : LabelCode) : (s.close next).pc_scratch = s.pc_scratch := rfl
@[simp] theorem State.close_alu (next : LabelCode) : (s.close next).alu = s.alu := rfl
@[simp] theorem State.close_alu_ext (next : LabelCode) : (s.close next).alu_ext = s.alu_ext := rfl
@[simp] theorem State.close_alu_buf (next : LabelCode) : (s.close next).alu_buf = s.alu_buf := rfl
@[simp] theorem State.close_addr_hi (next : LabelCode) : (s.close next).addr_hi = s.addr_hi := rfl
@[simp] theorem State.close_addr_lo (next : LabelCode) : (s.close next).addr_lo = s.addr_lo := rfl
@[simp] theorem State.close_counter (next : LabelCode) : (s.close next).counter = s.counter := rfl
@[simp] theorem State.close_flags (next : LabelCode) : (s.close next).flags = s.flags := rfl
@[simp] theorem State.close_control_state (next : LabelCode) : (s.close next).control_state = next := rfl
@[simp] theorem State.close_cycles (next : LabelCode) : (s.close next).cycles = s.cycles + 2 := rfl
@[simp] theorem State.close_inputs (next : LabelCode) : (s.close next).inputs = s.inputs := rfl

/-! `idle` -/

@[simp] theorem State.idle_dividend_hi (next : LabelCode) : (s.idle next).dividend_hi = s.dividend_hi := rfl
@[simp] theorem State.idle_dividend_lo (next : LabelCode) : (s.idle next).dividend_lo = s.dividend_lo := rfl
@[simp] theorem State.idle_divisor (next : LabelCode) : (s.idle next).divisor = s.divisor := rfl
@[simp] theorem State.idle_pc_scratch (next : LabelCode) : (s.idle next).pc_scratch = s.pc_scratch := rfl
@[simp] theorem State.idle_alu (next : LabelCode) : (s.idle next).alu = s.alu := rfl
@[simp] theorem State.idle_alu_ext (next : LabelCode) : (s.idle next).alu_ext = s.alu_ext := rfl
@[simp] theorem State.idle_alu_buf (next : LabelCode) : (s.idle next).alu_buf = s.alu_buf := rfl
@[simp] theorem State.idle_addr_hi (next : LabelCode) : (s.idle next).addr_hi = s.addr_hi := rfl
@[simp] theorem State.idle_addr_lo (next : LabelCode) : (s.idle next).addr_lo = s.addr_lo := rfl
@[simp] theorem State.idle_counter (next : LabelCode) : (s.idle next).counter = s.counter := rfl
@[simp] theorem State.idle_flags (next : LabelCode) : (s.idle next).flags = s.flags := rfl
@[simp] theorem State.idle_control_state (next : LabelCode) : (s.idle next).control_state = next := rfl
@[simp] theorem State.idle_cycles (next : LabelCode) : (s.idle next).cycles = s.cycles + 2 := rfl
@[simp] theorem State.idle_inputs (next : LabelCode) : (s.idle next).inputs = s.inputs := rfl

/-! `applyReset` -/

@[simp] theorem State.applyReset_dividend_hi : s.applyReset.dividend_hi = s.dividend_hi := rfl
@[simp] theorem State.applyReset_dividend_lo : s.applyReset.dividend_lo = s.dividend_lo := rfl
@[simp] theorem State.applyReset_divisor : s.applyReset.divisor = s.divisor := rfl
@[simp] theorem State.applyReset_pc_scratch : s.applyReset.pc_scratch = s.pc_scratch := rfl
@[simp] theorem State.applyReset_alu : s.applyReset.alu = s.alu := rfl
@[simp] theorem State.applyReset_alu_ext : s.applyReset.alu_ext = s.alu_ext := rfl
@[simp] theorem State.applyReset_alu_buf : s.applyReset.alu_buf = s.alu_buf := rfl
@[simp] theorem State.applyReset_addr_hi : s.applyReset.addr_hi = s.addr_hi := rfl
@[simp] theorem State.applyReset_addr_lo : s.applyReset.addr_lo = s.addr_lo := rfl
@[simp] theorem State.applyReset_counter : s.applyReset.counter = s.counter := rfl
@[simp] theorem State.applyReset_flags : s.applyReset.flags = s.flags := rfl
@[simp] theorem State.applyReset_control_state : s.applyReset.control_state = Label.tNext := rfl
@[simp] theorem State.applyReset_cycles : s.applyReset.cycles = 0 := rfl
@[simp] theorem State.applyReset_inputs : s.applyReset.inputs = s.inputs := rfl

/-! `report` -/

@[simp] theorem State.report_dividend_hi (o : OutcomeTag) : (s.report o).dividend_hi = s.dividend_hi := rfl
@[simp] theorem State.report_dividend_lo (o : OutcomeTag) : (s.report o).dividend_lo = s.dividend_lo := rfl
@[simp] theorem State.report_divisor (o : OutcomeTag) : (s.report o).divisor = s.divisor := rfl
@[simp] theorem State.report_pc_scratch (o : OutcomeTag) : (s.report o).pc_scratch = s.pc_scratch := rfl
@[simp] theorem State.report_alu (o : OutcomeTag) : (s.report o).alu = s.alu := rfl
@[simp] theorem State.report_alu_ext (o : OutcomeTag) : (s.report o).alu_ext = s.alu_ext := rfl
@[simp] theorem State.report_alu_buf (o : OutcomeTag) : (s.report o).alu_buf = s.alu_buf := rfl
@[simp] theorem State.report_addr_hi (o : OutcomeTag) : (s.report o).addr_hi = s.addr_hi := rfl
@[simp] theorem State.report_addr_lo (o : OutcomeTag) : (s.report o).addr_lo = s.addr_lo := rfl
@[simp] theorem State.report_counter (o : OutcomeTag) : (s.report o).counter = s.counter := rfl
@[simp] theorem State.report_flags (o : OutcomeTag) : (s.report o).flags = s.flags := rfl
@[simp] theorem State.report_control_state (o : OutcomeTag) : (s.report o).control_state = o.label := rfl
@[simp] theorem State.report_cycles (o : OutcomeTag) : (s.report o).cycles = s.cycles := rfl
@[simp] theorem State.report_inputs (o : OutcomeTag) : (s.report o).inputs = s.inputs := rfl

/-! `issueShift` -/

@[simp] theorem State.issueShift_dividend_hi (b : Bool) : (s.issueShift b).dividend_hi = s.dividend_hi := rfl
@[simp] theorem State.issueShift_dividend_lo (b : Bool) : (s.issueShift b).dividend_lo = s.dividend_lo := rfl
@[simp] theorem State.issueShift_divisor (b : Bool) : (s.issueShift b).divisor = s.divisor := rfl
@[simp] theorem State.issueShift_pc_scratch (b : Bool) : (s.issueShift b).pc_scratch = s.pc_scratch := rfl
@[simp] theorem State.issueShift_alu (b : Bool) : (s.issueShift b).alu = (shiftPair s.workingPair b).extractLsb' 16 16 := rfl
@[simp] theorem State.issueShift_alu_ext (b : Bool) : (s.issueShift b).alu_ext = (shiftPair s.workingPair b).extractLsb' 0 16 := rfl
@[simp] theorem State.issueShift_alu_buf (b : Bool) : (s.issueShift b).alu_buf = s.alu_buf := rfl
@[simp] theorem State.issueShift_addr_hi (b : Bool) : (s.issueShift b).addr_hi = s.addr_hi := rfl
@[simp] theorem State.issueShift_addr_lo (b : Bool) : (s.issueShift b).addr_lo = s.addr_lo := rfl
@[simp] theorem State.issueShift_counter (b : Bool) : (s.issueShift b).counter = s.counter := rfl
@[simp] theorem State.issueShift_flags (b : Bool) : (s.issueShift b).flags = s.flags := rfl
@[simp] theorem State.issueShift_control_state (b : Bool) : (s.issueShift b).control_state = s.control_state := rfl
@[simp] theorem State.issueShift_cycles (b : Bool) : (s.issueShift b).cycles = s.cycles := rfl
@[simp] theorem State.issueShift_inputs (b : Bool) : (s.issueShift b).inputs = s.inputs := rfl

/-! `stepShift` -/

@[simp] theorem State.stepShift_dividend_hi (b : Bool) : (s.stepShift b).dividend_hi = s.dividend_hi := rfl
@[simp] theorem State.stepShift_dividend_lo (b : Bool) : (s.stepShift b).dividend_lo = s.dividend_lo := rfl
@[simp] theorem State.stepShift_divisor (b : Bool) : (s.stepShift b).divisor = s.divisor := rfl
@[simp] theorem State.stepShift_pc_scratch (b : Bool) : (s.stepShift b).pc_scratch = s.pc_scratch := rfl
@[simp] theorem State.stepShift_alu (b : Bool) : (s.stepShift b).alu = (shiftPair s.workingPair b).extractLsb' 16 16 := rfl
@[simp] theorem State.stepShift_alu_ext (b : Bool) : (s.stepShift b).alu_ext = (shiftPair s.workingPair b).extractLsb' 0 16 := rfl
@[simp] theorem State.stepShift_alu_buf (b : Bool) : (s.stepShift b).alu_buf = s.alu_buf := rfl
@[simp] theorem State.stepShift_addr_hi (b : Bool) : (s.stepShift b).addr_hi = s.addr_hi := rfl
@[simp] theorem State.stepShift_addr_lo (b : Bool) : (s.stepShift b).addr_lo = s.addr_lo := rfl
@[simp] theorem State.stepShift_counter (b : Bool) : (s.stepShift b).counter = s.counter - 1#32 := rfl
@[simp] theorem State.stepShift_flags (b : Bool) : (s.stepShift b).flags = s.flags := rfl
@[simp] theorem State.stepShift_control_state (b : Bool) : (s.stepShift b).control_state = s.control_state := rfl
@[simp] theorem State.stepShift_cycles (b : Bool) : (s.stepShift b).cycles = s.cycles := rfl
@[simp] theorem State.stepShift_inputs (b : Bool) : (s.stepShift b).inputs = s.inputs := rfl

/-! `loadWorkingPair` -/

@[simp] theorem State.loadWorkingPair_dividend_hi : (s.loadWorkingPair).dividend_hi = s.dividend_hi := rfl
@[simp] theorem State.loadWorkingPair_dividend_lo : (s.loadWorkingPair).dividend_lo = s.dividend_lo := rfl
@[simp] theorem State.loadWorkingPair_divisor : (s.loadWorkingPair).divisor = s.divisor := rfl
@[simp] theorem State.loadWorkingPair_pc_scratch : (s.loadWorkingPair).pc_scratch = s.pc_scratch := rfl
@[simp] theorem State.loadWorkingPair_alu : (s.loadWorkingPair).alu = s.dividend_hi := rfl
@[simp] theorem State.loadWorkingPair_alu_ext : (s.loadWorkingPair).alu_ext = s.dividend_lo := rfl
@[simp] theorem State.loadWorkingPair_alu_buf : (s.loadWorkingPair).alu_buf = s.alu_buf := rfl
@[simp] theorem State.loadWorkingPair_addr_hi : (s.loadWorkingPair).addr_hi = s.addr_hi := rfl
@[simp] theorem State.loadWorkingPair_addr_lo : (s.loadWorkingPair).addr_lo = s.addr_lo := rfl
@[simp] theorem State.loadWorkingPair_counter : (s.loadWorkingPair).counter = s.counter := rfl
@[simp] theorem State.loadWorkingPair_flags : (s.loadWorkingPair).flags = s.flags := rfl
@[simp] theorem State.loadWorkingPair_control_state : (s.loadWorkingPair).control_state = s.control_state := rfl
@[simp] theorem State.loadWorkingPair_cycles : (s.loadWorkingPair).cycles = s.cycles := rfl
@[simp] theorem State.loadWorkingPair_inputs : (s.loadWorkingPair).inputs = s.inputs := rfl

/-! `loadCounter` -/

@[simp] theorem State.loadCounter_dividend_hi : (s.loadCounter).dividend_hi = s.dividend_hi := rfl
@[simp] theorem State.loadCounter_dividend_lo : (s.loadCounter).dividend_lo = s.dividend_lo := rfl
@[simp] theorem State.loadCounter_divisor : (s.loadCounter).divisor = s.divisor := rfl
@[simp] theorem State.loadCounter_pc_scratch : (s.loadCounter).pc_scratch = s.pc_scratch := rfl
@[simp] theorem State.loadCounter_alu : (s.loadCounter).alu = s.alu := rfl
@[simp] theorem State.loadCounter_alu_ext : (s.loadCounter).alu_ext = s.alu_ext := rfl
@[simp] theorem State.loadCounter_alu_buf : (s.loadCounter).alu_buf = s.alu_buf := rfl
@[simp] theorem State.loadCounter_addr_hi : (s.loadCounter).addr_hi = s.addr_hi := rfl
@[simp] theorem State.loadCounter_addr_lo : (s.loadCounter).addr_lo = s.addr_lo := rfl
@[simp] theorem State.loadCounter_counter : (s.loadCounter).counter = 16#32 := rfl
@[simp] theorem State.loadCounter_flags : (s.loadCounter).flags = s.flags := rfl
@[simp] theorem State.loadCounter_control_state : (s.loadCounter).control_state = s.control_state := rfl
@[simp] theorem State.loadCounter_cycles : (s.loadCounter).cycles = s.cycles := rfl
@[simp] theorem State.loadCounter_inputs : (s.loadCounter).inputs = s.inputs := rfl

/-! `restore` -/

@[simp] theorem State.restore_dividend_hi : (s.restore).dividend_hi = s.dividend_hi := rfl
@[simp] theorem State.restore_dividend_lo : (s.restore).dividend_lo = s.dividend_lo := rfl
@[simp] theorem State.restore_divisor : (s.restore).divisor = s.divisor := rfl
@[simp] theorem State.restore_pc_scratch : (s.restore).pc_scratch = s.pc_scratch := rfl
@[simp] theorem State.restore_alu : (s.restore).alu = s.addr_lo := rfl
@[simp] theorem State.restore_alu_ext : (s.restore).alu_ext = s.alu_ext := rfl
@[simp] theorem State.restore_alu_buf : (s.restore).alu_buf = s.alu_buf := rfl
@[simp] theorem State.restore_addr_hi : (s.restore).addr_hi = s.addr_hi := rfl
@[simp] theorem State.restore_addr_lo : (s.restore).addr_lo = s.addr_lo := rfl
@[simp] theorem State.restore_counter : (s.restore).counter = s.counter := rfl
@[simp] theorem State.restore_flags : (s.restore).flags = s.flags := rfl
@[simp] theorem State.restore_control_state : (s.restore).control_state = s.control_state := rfl
@[simp] theorem State.restore_cycles : (s.restore).cycles = s.cycles := rfl
@[simp] theorem State.restore_inputs : (s.restore).inputs = s.inputs := rfl

/-! `writeback` -/

@[simp] theorem State.writeback_dividend_hi (m q : Word) : (s.writeback m q).dividend_hi = m := rfl
@[simp] theorem State.writeback_dividend_lo (m q : Word) : (s.writeback m q).dividend_lo = q := rfl
@[simp] theorem State.writeback_divisor (m q : Word) : (s.writeback m q).divisor = s.divisor := rfl
@[simp] theorem State.writeback_pc_scratch (m q : Word) : (s.writeback m q).pc_scratch = s.pc_scratch := rfl
@[simp] theorem State.writeback_alu (m q : Word) : (s.writeback m q).alu = s.alu := rfl
@[simp] theorem State.writeback_alu_ext (m q : Word) : (s.writeback m q).alu_ext = s.alu_ext := rfl
@[simp] theorem State.writeback_alu_buf (m q : Word) : (s.writeback m q).alu_buf = s.alu_buf := rfl
@[simp] theorem State.writeback_addr_hi (m q : Word) : (s.writeback m q).addr_hi = s.addr_hi := rfl
@[simp] theorem State.writeback_addr_lo (m q : Word) : (s.writeback m q).addr_lo = s.addr_lo := rfl
@[simp] theorem State.writeback_counter (m q : Word) : (s.writeback m q).counter = s.counter := rfl
@[simp] theorem State.writeback_flags (m q : Word) : (s.writeback m q).flags = s.flags := rfl
@[simp] theorem State.writeback_control_state (m q : Word) : (s.writeback m q).control_state = s.control_state := rfl
@[simp] theorem State.writeback_cycles (m q : Word) : (s.writeback m q).cycles = s.cycles := rfl
@[simp] theorem State.writeback_inputs (m q : Word) : (s.writeback m q).inputs = s.inputs := rfl

/-! `dropMove` -/

@[simp] theorem State.dropMove_dividend_hi : (s.dropMove).dividend_hi = s.dividend_hi := rfl
@[simp] theorem State.dropMove_dividend_lo : (s.dropMove).dividend_lo = s.dividend_lo := rfl
@[simp] theorem State.dropMove_divisor : (s.dropMove).divisor = s.divisor := rfl
@[simp] theorem State.dropMove_pc_scratch : (s.dropMove).pc_scratch = s.pc_scratch := rfl
@[simp] theorem State.dropMove_alu : (s.dropMove).alu = s.alu := rfl
@[simp] theorem State.dropMove_alu_ext : (s.dropMove).alu_ext = s.alu_ext := rfl
@[simp] theorem State.dropMove_alu_buf : (s.dropMove).alu_buf = s.alu_buf := rfl
@[simp] theorem State.dropMove_addr_hi : (s.dropMove).addr_hi = s.addr_hi := rfl
@[simp] theorem State.dropMove_addr_lo : (s.dropMove).addr_lo = s.addr_lo := rfl
@[simp] theorem State.dropMove_counter : (s.dropMove).counter = s.counter := rfl
@[simp] theorem State.dropMove_flags : (s.dropMove).flags = s.flags := rfl
@[simp] theorem State.dropMove_control_state : (s.dropMove).control_state = s.control_state := rfl
@[simp] theorem State.dropMove_cycles : (s.dropMove).cycles = s.cycles := rfl
@[simp] theorem State.dropMove_inputs : (s.dropMove).inputs = s.inputs.tail := rfl

/-! `test` -/

@[simp] theorem State.test_dividend_hi (r : Reg16) : (s.test r).dividend_hi = s.dividend_hi := rfl
@[simp] theorem State.test_dividend_lo (r : Reg16) : (s.test r).dividend_lo = s.dividend_lo := rfl
@[simp] theorem State.test_divisor (r : Reg16) : (s.test r).divisor = s.divisor := rfl
@[simp] theorem State.test_pc_scratch (r : Reg16) : (s.test r).pc_scratch = s.pc_scratch := rfl
@[simp] theorem State.test_alu (r : Reg16) : (s.test r).alu = s.alu := rfl
@[simp] theorem State.test_alu_ext (r : Reg16) : (s.test r).alu_ext = s.alu_ext := rfl
@[simp] theorem State.test_alu_buf (r : Reg16) : (s.test r).alu_buf = s.alu_buf := rfl
@[simp] theorem State.test_addr_hi (r : Reg16) : (s.test r).addr_hi = s.addr_hi := rfl
@[simp] theorem State.test_addr_lo (r : Reg16) : (s.test r).addr_lo = s.addr_lo := rfl
@[simp] theorem State.test_counter (r : Reg16) : (s.test r).counter = s.counter := rfl
@[simp] theorem State.test_flags (r : Reg16) : (s.test r).flags = (and16 (s.readReg r) 0xFFFF#16 s.flags).f := rfl
@[simp] theorem State.test_control_state (r : Reg16) : (s.test r).control_state = s.control_state := rfl
@[simp] theorem State.test_cycles (r : Reg16) : (s.test r).cycles = s.cycles := rfl
@[simp] theorem State.test_inputs (r : Reg16) : (s.test r).inputs = s.inputs := rfl

/-! `compare` -/

@[simp] theorem State.compare_dividend_hi (r : Reg16) : (s.compare r).dividend_hi = s.dividend_hi := rfl
@[simp] theorem State.compare_dividend_lo (r : Reg16) : (s.compare r).dividend_lo = s.dividend_lo := rfl
@[simp] theorem State.compare_divisor (r : Reg16) : (s.compare r).divisor = s.divisor := rfl
@[simp] theorem State.compare_pc_scratch (r : Reg16) : (s.compare r).pc_scratch = s.pc_scratch := rfl
@[simp] theorem State.compare_alu (r : Reg16) : (s.compare r).alu = s.alu := rfl
@[simp] theorem State.compare_alu_ext (r : Reg16) : (s.compare r).alu_ext = s.alu_ext := rfl
@[simp] theorem State.compare_alu_buf (r : Reg16) : (s.compare r).alu_buf = s.alu_buf := rfl
@[simp] theorem State.compare_addr_hi (r : Reg16) : (s.compare r).addr_hi = s.addr_hi := rfl
@[simp] theorem State.compare_addr_lo (r : Reg16) : (s.compare r).addr_lo = s.addr_lo := rfl
@[simp] theorem State.compare_counter (r : Reg16) : (s.compare r).counter = s.counter := rfl
@[simp] theorem State.compare_flags (r : Reg16) : (s.compare r).flags = (sub16 (s.readReg r) s.alu_buf s.flags).f := rfl
@[simp] theorem State.compare_control_state (r : Reg16) : (s.compare r).control_state = s.control_state := rfl
@[simp] theorem State.compare_cycles (r : Reg16) : (s.compare r).cycles = s.cycles := rfl
@[simp] theorem State.compare_inputs (r : Reg16) : (s.compare r).inputs = s.inputs := rfl

/-! `subtract` -/

@[simp] theorem State.subtract_dividend_hi : (s.subtract).dividend_hi = s.dividend_hi := rfl
@[simp] theorem State.subtract_dividend_lo : (s.subtract).dividend_lo = s.dividend_lo := rfl
@[simp] theorem State.subtract_divisor : (s.subtract).divisor = s.divisor := rfl
@[simp] theorem State.subtract_pc_scratch : (s.subtract).pc_scratch = s.pc_scratch := rfl
@[simp] theorem State.subtract_alu : (s.subtract).alu = s.alu - s.alu_buf := rfl
@[simp] theorem State.subtract_alu_ext : (s.subtract).alu_ext = s.alu_ext := rfl
@[simp] theorem State.subtract_alu_buf : (s.subtract).alu_buf = s.alu_buf := rfl
@[simp] theorem State.subtract_addr_hi : (s.subtract).addr_hi = s.addr_hi := rfl
@[simp] theorem State.subtract_addr_lo : (s.subtract).addr_lo = s.addr_lo := rfl
@[simp] theorem State.subtract_counter : (s.subtract).counter = s.counter := rfl
@[simp] theorem State.subtract_flags : (s.subtract).flags = (sub16 s.alu s.alu_buf s.flags).f := rfl
@[simp] theorem State.subtract_control_state : (s.subtract).control_state = s.control_state := rfl
@[simp] theorem State.subtract_cycles : (s.subtract).cycles = s.cycles := rfl
@[simp] theorem State.subtract_inputs : (s.subtract).inputs = s.inputs := rfl

/-! `trialSubtract` -/

@[simp] theorem State.trialSubtract_dividend_hi : (s.trialSubtract).dividend_hi = s.dividend_hi := rfl
@[simp] theorem State.trialSubtract_dividend_lo : (s.trialSubtract).dividend_lo = s.dividend_lo := rfl
@[simp] theorem State.trialSubtract_divisor : (s.trialSubtract).divisor = s.divisor := rfl
@[simp] theorem State.trialSubtract_pc_scratch : (s.trialSubtract).pc_scratch = s.pc_scratch := rfl
@[simp] theorem State.trialSubtract_alu : (s.trialSubtract).alu = s.alu - s.alu_buf := rfl
@[simp] theorem State.trialSubtract_alu_ext : (s.trialSubtract).alu_ext = s.alu_ext := rfl
@[simp] theorem State.trialSubtract_alu_buf : (s.trialSubtract).alu_buf = s.alu_buf := rfl
@[simp] theorem State.trialSubtract_addr_hi : (s.trialSubtract).addr_hi = s.addr_hi := rfl
@[simp] theorem State.trialSubtract_addr_lo : (s.trialSubtract).addr_lo = s.alu := rfl
@[simp] theorem State.trialSubtract_counter : (s.trialSubtract).counter = s.counter := rfl
@[simp] theorem State.trialSubtract_flags : (s.trialSubtract).flags = (sub16 s.alu s.alu_buf s.flags).f := rfl
@[simp] theorem State.trialSubtract_control_state : (s.trialSubtract).control_state = s.control_state := rfl
@[simp] theorem State.trialSubtract_cycles : (s.trialSubtract).cycles = s.cycles := rfl
@[simp] theorem State.trialSubtract_inputs : (s.trialSubtract).inputs = s.inputs := rfl

/-! `setFlags` -/

@[simp] theorem State.setFlags_dividend_hi (f : Flags) : (s.setFlags f).dividend_hi = s.dividend_hi := rfl
@[simp] theorem State.setFlags_dividend_lo (f : Flags) : (s.setFlags f).dividend_lo = s.dividend_lo := rfl
@[simp] theorem State.setFlags_divisor (f : Flags) : (s.setFlags f).divisor = s.divisor := rfl
@[simp] theorem State.setFlags_pc_scratch (f : Flags) : (s.setFlags f).pc_scratch = s.pc_scratch := rfl
@[simp] theorem State.setFlags_alu (f : Flags) : (s.setFlags f).alu = s.alu := rfl
@[simp] theorem State.setFlags_alu_ext (f : Flags) : (s.setFlags f).alu_ext = s.alu_ext := rfl
@[simp] theorem State.setFlags_alu_buf (f : Flags) : (s.setFlags f).alu_buf = s.alu_buf := rfl
@[simp] theorem State.setFlags_addr_hi (f : Flags) : (s.setFlags f).addr_hi = s.addr_hi := rfl
@[simp] theorem State.setFlags_addr_lo (f : Flags) : (s.setFlags f).addr_lo = s.addr_lo := rfl
@[simp] theorem State.setFlags_counter (f : Flags) : (s.setFlags f).counter = s.counter := rfl
@[simp] theorem State.setFlags_flags (f : Flags) : (s.setFlags f).flags = f := rfl
@[simp] theorem State.setFlags_control_state (f : Flags) : (s.setFlags f).control_state = s.control_state := rfl
@[simp] theorem State.setFlags_cycles (f : Flags) : (s.setFlags f).cycles = s.cycles := rfl
@[simp] theorem State.setFlags_inputs (f : Flags) : (s.setFlags f).inputs = s.inputs := rfl

@[simp] theorem State.readReg_setFlags (f : Flags) (q : Reg16) : (s.setFlags f).readReg q = s.readReg q := by cases q <;> rfl

/-! `writeReg`: the fields that are no 16-bit register, and every 16-bit register by name. -/

@[simp] theorem State.writeReg_pc_scratch (r : Reg16) (v : Word) : (s.writeReg r v).pc_scratch = s.pc_scratch := by cases r <;> rfl
@[simp] theorem State.writeReg_counter (r : Reg16) (v : Word) : (s.writeReg r v).counter = s.counter := by cases r <;> rfl
@[simp] theorem State.writeReg_flags (r : Reg16) (v : Word) : (s.writeReg r v).flags = s.flags := by cases r <;> rfl
@[simp] theorem State.writeReg_control_state (r : Reg16) (v : Word) : (s.writeReg r v).control_state = s.control_state := by cases r <;> rfl
@[simp] theorem State.writeReg_cycles (r : Reg16) (v : Word) : (s.writeReg r v).cycles = s.cycles := by cases r <;> rfl
@[simp] theorem State.writeReg_inputs (r : Reg16) (v : Word) : (s.writeReg r v).inputs = s.inputs := by cases r <;> rfl

@[simp] theorem State.readReg_writeReg (r q : Reg16) (v : Word) :
    (s.writeReg r v).readReg q = if r = q then v else s.readReg q := by
  cases r <;> cases q <;> rfl

/-- `writeReg` changes one 16-bit register and nothing beside the 16-bit registers. -/
theorem State.eq_of_readReg {t : State} (h : ∀ q, t.readReg q = s.readReg q) (hp : t.pc_scratch = s.pc_scratch)
    (hc : t.counter = s.counter) (hf : t.flags = s.flags) (hl : t.control_state = s.control_state)
    (hy : t.cycles = s.cycles) (hi : t.inputs = s.inputs) : t = s := by
  have h1 := h .dividend_hi; have h2 := h .dividend_lo; have h3 := h .divisor; have h4 := h .alu
  have h5 := h .alu_ext; have h6 := h .alu_buf; have h7 := h .addr_hi; have h8 := h .addr_lo
  cases s; cases t
  simp_all [State.readReg]

/-! `storeResult` -/

@[simp] theorem State.storeResult_none (v : Word) : s.storeResult none v = s := rfl

@[simp] theorem State.storeResult_some (r : Reg16) (v : Word) : s.storeResult (some r) v = s.writeReg r v := rfl

@[simp] theorem State.storeResult_pc_scratch (d : Option Reg16) (v : Word) : (s.storeResult d v).pc_scratch = s.pc_scratch := by cases d <;> simp
@[simp] theorem State.storeResult_counter (d : Option Reg16) (v : Word) : (s.storeResult d v).counter = s.counter := by cases d <;> simp
@[simp] theorem State.storeResult_flags (d : Option Reg16) (v : Word) : (s.storeResult d v).flags = s.flags := by cases d <;> simp
@[simp] theorem State.storeResult_control_state (d : Option Reg16) (v : Word) : (s.storeResult d v).control_state = s.control_state := by cases d <;> simp
@[simp] theorem State.storeResult_cycles (d : Option Reg16) (v : Word) : (s.storeResult d v).cycles = s.cycles := by cases d <;> simp
@[simp] theorem State.storeResult_inputs (d : Option Reg16) (v : Word) : (s.storeResult d v).inputs = s.inputs := by cases d <;> simp

@[simp] theorem State.readReg_storeResult (d : Option Reg16) (q : Reg16) (v : Word) :
    (s.storeResult d v).readReg q = if d = some q then v else s.readReg q := by
  cases d <;> simp

/-! The flags value in its port format (R55). -/

@[simp] theorem Flags.unpack_pack (f : Flags) : Flags.unpack f.pack = f := by
  obtain ⟨x, n, z, v, c⟩ := f
  cases x <;> cases n <;> cases z <;> cases v <;> cases c <;> rfl

theorem Flags.pack_unpack (v : BitVec 5) : (Flags.unpack v).pack = v := by
  revert v; decide

end Sys2Proof.Machine
end

