-- ==== Sys2Proof/Laws/Alu.lean ====
section
/-! SUPPORT. The ALU primitives in the words of the rules (`41_alu_primitives.md` R86 to R93): results as numbers, flags as
`testFlags` and `subFlags`, the shifted pair half by half. -/

namespace Sys2Proof.Machine

@[simp] theorem and16_r (a b : Word) (f : Flags) : (and16 a b f).r = a &&& b := rfl
@[simp] theorem sub16_r (a b : Word) (f : Flags) : (sub16 a b f).r = a - b := rfl
@[simp] theorem subx16_f (a b : Word) (f : Flags) : (subx16 a b f).f = f := rfl

theorem beq_zero_eq_decide (v : Word) : (v == 0x0000#16) = decide (v.toNat = 0) := by
  rw [Bool.eq_iff_iff]; simp [BitVec.toNat_eq]

theorem msb_eq_decide_le (v : Word) : v.msb = decide (0x8000 ≤ v.toNat) := BitVec.msb_eq_decide v

theorem msb_eq_bit15 (v : Word) : v.msb = v.getLsbD 15 := by simp [BitVec.msb_eq_getLsbD_last]

/-- `and(v, 0xFFFF)` is a pure test of `v` (R86). -/
@[simp] theorem and16_ones_f (v : Word) (f : Flags) : (and16 v 0xFFFF#16 f).f = testFlags f v := by
  have h : v &&& 0xFFFF#16 = v := BitVec.and_allOnes
  simp only [and16, testFlags, h, beq_zero_eq_decide, msb_eq_decide_le]

/-- V of a subtraction is "the signed difference ... outside -32768 to 32767" (R87). -/
theorem sub_overflow_iff (a b : Word) :
    ((a ^^^ b) &&& (a ^^^ (a - b))).msb = decide (a.toInt - b.toInt < -32768 ∨ 32767 < a.toInt - b.toInt) := by
  have ha := a.isLt
  have hb := b.isLt
  rw [BitVec.msb_and, BitVec.msb_xor, BitVec.msb_xor]
  simp only [msb_eq_decide_le, BitVec.toNat_sub, BitVec.toInt_eq_toNat_cond]
  by_cases h1 : 0x8000 ≤ a.toNat <;> by_cases h2 : 0x8000 ≤ b.toNat <;>
    by_cases h3 : 0x8000 ≤ (2 ^ 16 - b.toNat + a.toNat) % 2 ^ 16 <;>
    simp only [h1, h2, h3, decide_true, decide_false, Bool.xor_self, Bool.xor_false, Bool.xor_true,
      Bool.not_false, Bool.and_true, Bool.and_false, Bool.and_self] <;>
    first
    | exact (decide_eq_true (by omega)).symm
    | exact (decide_eq_false (by omega)).symm

/-- The five flags of a subtraction (R87). -/
@[simp] theorem sub16_f (a b : Word) (f : Flags) : (sub16 a b f).f = subFlags a b := by
  have hz : decide ((a - b).toNat = 0) = decide (a.toNat = b.toNat) := by
    have ha := a.isLt; have hb := b.isLt
    rw [BitVec.toNat_sub]; congr 1; apply propext; omega
  simp only [sub16, subFlags, beq_zero_eq_decide, sub_overflow_iff, hz, BitVec.lt_def]
  rw [msb_eq_decide_le]

theorem subx16_r_toNat (a b : Word) (f : Flags) :
    (subx16 a b f).r.toNat = (a.toNat + 131072 - b.toNat - f.x.toNat) % 65536 := by
  have ha := a.isLt; have hb := b.isLt
  cases hx : f.x <;> simp [subx16, hx, BitVec.toNat_sub] <;> omega

/-- The pair shift as a number (R89). -/
theorem shiftPair_toNat (p : Long) (b : Bool) : (shiftPair p b).toNat = (2 * p.toNat + b.toNat) % 2 ^ 32 := by
  have h : (p <<< 1) ||| (BitVec.ofBool b).setWidth 32 = (p <<< 1) + (BitVec.ofBool b).setWidth 32 := by
    rw [BitVec.add_eq_or_of_and_eq_zero]
    ext i hi
    cases b <;> simp
    omega
  have hp := p.isLt
  rw [shiftPair, h]
  cases b <;> simp [BitVec.toNat_add, BitVec.toNat_shiftLeft, Nat.shiftLeft_eq] <;> omega

/-! ## Issued primitives, for every operand source and every place of the result (R85, R90) -/

theorem State.issueAnd_stored (s : State) (dst src : AluOperand) (d : Option Reg16) :
    StoredOnly s (s.issueAnd dst src d) d (s.operand dst &&& s.operand src) := by
  intro q; simp [State.issueAnd]

theorem State.issueSub_stored (s : State) (dst src : AluOperand) (d : Option Reg16) :
    StoredOnly s (s.issueSub dst src d) d (s.operand dst - s.operand src) := by
  intro q; simp [State.issueSub]

theorem State.issueSubx_stored (s : State) (dst src : AluOperand) (d : Option Reg16) :
    StoredOnly s (s.issueSubx dst src d) d (subx16 (s.operand dst) (s.operand src) s.flags).r := by
  intro q; simp [State.issueSubx]

theorem State.issueAnd_beside (s : State) (dst src : AluOperand) (d : Option Reg16) :
    SameBesideRegsAndFlags s (s.issueAnd dst src d) := by
  simp [SameBesideRegsAndFlags, State.issueAnd]

theorem State.issueSub_beside (s : State) (dst src : AluOperand) (d : Option Reg16) :
    SameBesideRegsAndFlags s (s.issueSub dst src d) := by
  simp [SameBesideRegsAndFlags, State.issueSub]

theorem State.issueSubx_beside (s : State) (dst src : AluOperand) (d : Option Reg16) :
    SameBesideRegsAndFlags s (s.issueSubx dst src d) := by
  simp [SameBesideRegsAndFlags, State.issueSubx]

/-! ## The shifted pair -/

theorem append_toNat {m n : Nat} (a : BitVec m) (b : BitVec n) : (a ++ b).toNat = a.toNat * 2 ^ n + b.toNat := by
  rw [BitVec.toNat_append, ← Nat.shiftLeft_add_eq_or_of_lt b.isLt, Nat.shiftLeft_eq]

theorem pair_toNat (a b : Word) : (pair a b).toNat = a.toNat * 65536 + b.toNat := append_toNat a b

theorem extract15_toNat (v : Word) : (v.extractLsb' 0 15).toNat = v.toNat % 32768 := by
  simp [BitVec.extractLsb'_toNat]

theorem shiftedAlu_toNat (s : State) :
    (shiftedAlu s).toNat = (2 * s.alu.toNat + s.alu_ext.toNat / 32768) % 65536 := by
  have ha := s.alu.isLt
  have hb := s.alu_ext.isLt
  rw [shiftedAlu, append_toNat, extract15_toNat, ← msb_eq_bit15, msb_eq_decide_le, BitVec.toNat_ofBool]
  by_cases h : 0x8000 ≤ s.alu_ext.toNat <;> simp [h] <;> omega

theorem shiftedAluExt_toNat (s : State) (b : Bool) :
    (shiftedAluExt s b).toNat = (2 * s.alu_ext.toNat + b.toNat) % 65536 := by
  have hb := s.alu_ext.isLt
  rw [shiftedAluExt, append_toNat, extract15_toNat, BitVec.toNat_ofBool]
  cases b <;> simp <;> omega

/-- The high half of the shifted pair is `(alu[14:0] : alu_ext[15])` (R89). -/
@[simp] theorem shiftPair_high (s : State) (b : Bool) :
    (shiftPair s.workingPair b).extractLsb' 16 16 = shiftedAlu s := by
  have ha := s.alu.isLt
  have hb := s.alu_ext.isLt
  apply BitVec.eq_of_toNat_eq
  rw [BitVec.extractLsb'_toNat, shiftPair_toNat, State.workingPair, pair_toNat, shiftedAlu_toNat, Nat.shiftRight_eq_div_pow]
  cases b <;> simp <;> omega

/-- The low half of the shifted pair is `(alu_ext[14:0] : b)` (R89). -/
@[simp] theorem shiftPair_low (s : State) (b : Bool) :
    (shiftPair s.workingPair b).extractLsb' 0 16 = shiftedAluExt s b := by
  have ha := s.alu.isLt
  have hb := s.alu_ext.isLt
  apply BitVec.eq_of_toNat_eq
  rw [BitVec.extractLsb'_toNat, shiftPair_toNat, State.workingPair, pair_toNat, shiftedAluExt_toNat, Nat.shiftRight_eq_div_pow]
  cases b <;> simp <;> omega

end Sys2Proof.Machine
end

