-- ==== Sys2Proof/Laws/Decode.lean ====
section
/-! SUPPORT. The codes of format `CS`: what a decoded label is, and which codes are terminal (`30_encoding.md` R52, R58, R59). -/

namespace Sys2Proof

/-- The label of an instruction of format `CS`. -/
def csCode (i : Instr) : Option LabelCode :=
  match encode i with
  | .cs c => some c
  | _ => none

/-- No two rows of format `CS` overlap (R59). -/
theorem csRows_pairwise : csRows.Pairwise fun r₁ r₂ => r₁.code ≠ r₂.code := by decide +kernel

theorem csRows_code_injective : ∀ r₁ ∈ csRows, ∀ r₂ ∈ csRows, r₁.code = r₂.code → r₁ = r₂ := by decide +kernel

theorem csRows_mask : ∀ r ∈ csRows, r.mask = 0x3F#6 := by decide

/-- A decoded label is the one the instruction is encoded by. -/
theorem csCode_of_decodeLabel : ∀ (v : LabelCode) (i : Instr), decodeLabel v = some i → csCode i = some v := by
  have h : ∀ v : LabelCode, ((decodeLabel v).all fun i => csCode i == some v) = true := by decide +kernel
  intro v i hv
  have hi := h v
  rw [hv] at hi
  exact eq_of_beq hi

/-- The label by which an instruction is encoded decodes to it. -/
theorem decodeLabel_of_csCode (v : LabelCode) (i : Instr) (h : csCode i = some v) : decodeLabel v = some i := by
  cases i <;> first | (cases h; done) | (cases h; rfl)

/-- The instructions of the control states of the two engines: `grp` is not 0 (R52). -/
def isEngine (i : Instr) : Bool :=
  match csCode i with
  | some c => decide (16 ≤ c.toNat)
  | none => false

theorem isTerminalLabel_iff (v : LabelCode) : isTerminalLabel v = true ↔ v.toNat ≤ 3 := by
  simp only [isTerminalLabel, decide_eq_true_eq]; omega

/-- The terminal test of R59. -/
theorem isTerminalLabel_iff_fields (v : LabelCode) :
    isTerminalLabel v = true ↔ labelGrp v = 0#2 ∧ (labelIdx v).toNat < 4 := by
  revert v; decide +kernel

theorem decodeLabel_eq_none_iff (v : LabelCode) :
    decodeLabel v = none ↔ (4 ≤ v.toNat ∧ v.toNat ≤ 15) ∨ 61 ≤ v.toNat := by
  revert v; decide +kernel

/-- A label that is not terminal selects a control state of an engine. -/
theorem isEngine_of_decodeLabel (v : LabelCode) (i : Instr) (h : decodeLabel v = some i)
    (ht : isTerminalLabel v = false) : isEngine i = true := by
  have hn : ¬ decodeLabel v = none := by simp [h]
  rw [decodeLabel_eq_none_iff] at hn
  simp only [isTerminalLabel, decide_eq_false_iff_not] at ht
  simp only [isEngine, csCode_of_decodeLabel v i h, decide_eq_true_eq]
  omega

theorem not_terminal_of_isEngine (v : LabelCode) (i : Instr) (h : csCode i = some v) (he : isEngine i = true) :
    isTerminalLabel v = false := by
  simp only [isEngine, h, decide_eq_true_eq] at he
  simp only [isTerminalLabel, decide_eq_false_iff_not]
  omega

end Sys2Proof
end

