-- ==== Sys2Proof/Laws/Meaning.lean ====
section
/-! SUPPORT. One lemma per meaning: the next state as one record, in the words of the state rules. A later proof cites these and
unfolds no meaning; what the record update does not name is unchanged. -/

namespace Sys2Proof.Machine

variable (s : State)

/-! ## Issued primitives -/

theorem State.test_eq (r : Reg16) : s.test r = { s with flags := testFlags s.flags (s.readReg r) } := by
  simp [State.test, State.issueAnd, State.operand, State.setFlags]

theorem State.compare_eq (r : Reg16) : s.compare r = { s with flags := subFlags (s.readReg r) s.alu_buf } := by
  simp [State.compare, State.issueSub, State.operand, State.readReg, State.setFlags]

theorem State.subtract_eq :
    s.subtract = { s with alu := s.alu - s.alu_buf, flags := subFlags s.alu s.alu_buf } := by
  simp [State.subtract, State.issueSub, State.operand, State.readReg, State.writeReg, State.setFlags]

theorem State.trialSubtract_eq :
    s.trialSubtract = { s with addr_lo := s.alu, alu := s.alu - s.alu_buf, flags := subFlags s.alu s.alu_buf } := by
  simp [State.trialSubtract, State.subtract_eq]

theorem State.negate_eq (r : Reg16) (d : Option Reg16) :
    s.negate r d = (s.storeResult d (0x0000#16 - s.readReg r)).setFlags (subFlags 0x0000#16 (s.readReg r)) := by
  simp [State.negate, State.issueSub, State.operand]

theorem State.issueShift_eq (b : Bool) :
    s.issueShift b = { s with alu := shiftedAlu s, alu_ext := shiftedAluExt s b } := by
  simp [State.issueShift]

theorem State.collectTrial_eq :
    s.collectTrial = { s with addr_hi := if s.flags.c then s.addr_lo else s.alu, alu := shiftedAlu s,
                              alu_ext := shiftedAluExt s (!s.flags.c) } := by
  cases h : s.flags.c <;> simp [State.collectTrial, State.issueShift_eq, shiftedAlu, shiftedAluExt, h]

/-! ## Control states -/

theorem execDvu1_eq : execDvu1 s = .next { s with
        alu_buf := s.divisor, flags := testFlags s.flags s.divisor, control_state := Label.dvu2, cycles
        := s.cycles + 2 } := by
  simp [execDvu1, State.test_eq, State.readReg, State.close, Config.cyclesPerState]

theorem execDvu2_eq : execDvu2 s = .next { s with
        alu := s.dividend_hi, alu_ext := s.dividend_lo, flags := subFlags s.dividend_hi s.alu_buf,
        control_state := if s.flags.z then Label.tTrap else Label.dvu3, cycles := s.cycles + 2 } := by
  simp [execDvu2, State.compare_eq, State.readReg, State.loadWorkingPair, OutcomeTag.label, State.close, Config.cyclesPerState]

theorem execDvu3_eq : execDvu3 s = .next { s with
        counter := 16#32, control_state := if s.flags.c then Label.dvush0 else Label.dvuo1, cycles :=
        s.cycles + 2 } := by
  rfl

theorem execDvuo1_eq : execDvuo1 s = .next { s with
        control_state := Label.dvuo2, cycles := s.cycles + 2 } := by
  rfl

theorem execDvuo2_eq : execDvuo2 s = .next { s with
        control_state := Label.tOvf, cycles := s.cycles + 2 } := by
  rfl

theorem execDvush0_eq : execDvush0 s = .next { s with
        alu := shiftedAlu s, alu_ext := shiftedAluExt s false, counter := s.counter - 1#32,
        control_state := if s.counter = 1#32 then (if s.alu.msb then Label.dvuf2f else Label.dvuf2t) else (if
        s.alu.msb then Label.dvusbf else Label.dvusbt), cycles := s.cycles + 2 } := by
  simp [execDvush0, State.stepShift, State.issueShift_eq, State.close, State.unsignedShiftNext, State.lastStep, Config.cyclesPerState]

theorem execDvush1_eq : execDvush1 s = .next { s with
        alu := shiftedAlu s, alu_ext := shiftedAluExt s true, counter := s.counter - 1#32,
        control_state := if s.counter = 1#32 then (if s.alu.msb then Label.dvuf2f else Label.dvuf2t) else (if
        s.alu.msb then Label.dvusbf else Label.dvusbt), cycles := s.cycles + 2 } := by
  simp [execDvush1, State.stepShift, State.issueShift_eq, State.close, State.unsignedShiftNext, State.lastStep, Config.cyclesPerState]

theorem execDvusbf_eq : execDvusbf s = .next { s with
        alu := s.alu - s.alu_buf, flags := subFlags s.alu s.alu_buf, control_state := Label.dvush1,
        cycles := s.cycles + 2 } := by
  simp [execDvusbf, State.subtract_eq, State.close, Config.cyclesPerState]

theorem execDvusbt_eq : execDvusbt s = .next { s with
        addr_lo := s.alu, alu := s.alu - s.alu_buf, flags := subFlags s.alu s.alu_buf, control_state :=
        Label.dvuchk, cycles := s.cycles + 2 } := by
  simp [execDvusbt, State.trialSubtract_eq, State.close, Config.cyclesPerState]

theorem execDvuchk_eq : execDvuchk s = .next { s with
        control_state := if s.flags.c then Label.dvurst else Label.dvush1, cycles := s.cycles + 2 } := by
  rfl

theorem execDvurst_eq : execDvurst s = .next { s with
        alu := s.addr_lo, control_state := Label.dvush0, cycles := s.cycles + 2 } := by
  rfl

theorem execDvuf2f_eq : execDvuf2f s = .next { s with
        alu := s.alu - s.alu_buf, flags := subFlags s.alu s.alu_buf, control_state := Label.dvuf3f,
        cycles := s.cycles + 2 } := by
  simp [execDvuf2f, State.subtract_eq, State.close, Config.cyclesPerState]

theorem execDvuf2t_eq : execDvuf2t s = .next { s with
        addr_lo := s.alu, alu := s.alu - s.alu_buf, flags := subFlags s.alu s.alu_buf, control_state :=
        Label.dvuf3t, cycles := s.cycles + 2 } := by
  simp [execDvuf2t, State.trialSubtract_eq, State.close, Config.cyclesPerState]

theorem execDvuf3f_eq : execDvuf3f s = .next { s with
        addr_hi := s.alu, alu := shiftedAlu s, alu_ext := shiftedAluExt s true, control_state :=
        Label.dvuf4, cycles := s.cycles + 2 } := by
  simp [execDvuf3f, State.issueShift_eq, shiftedAlu, shiftedAluExt, State.close, Config.cyclesPerState]

theorem execDvuf3t_eq : execDvuf3t s = .next { s with
        addr_hi := if s.flags.c then s.addr_lo else s.alu, alu := shiftedAlu s, alu_ext :=
        shiftedAluExt s (!s.flags.c), control_state := Label.dvuf4, cycles := s.cycles + 2 } := by
  simp [execDvuf3t, State.collectTrial_eq, State.close, Config.cyclesPerState]

theorem execDvuf4_eq : execDvuf4 s = .next { s with
        dividend_hi := s.addr_hi, dividend_lo := s.alu_ext, control_state := Label.tNext, cycles :=
        s.cycles + 2 } := by
  rfl

theorem execDvs1_eq : execDvs1 s = .next { s with
        alu_buf := s.divisor, flags := testFlags s.flags s.divisor, control_state := Label.dvs2, cycles
        := s.cycles + 2 } := by
  simp [execDvs1, State.test_eq, State.readReg, State.close, Config.cyclesPerState]

theorem execDvs2_eq : execDvs2 s = .next { s with
        alu_buf := if s.flags.n then 0x0000#16 - s.alu_buf else s.alu_buf, alu := s.dividend_hi,
        alu_ext := s.dividend_lo, flags := subFlags 0x0000#16 s.alu_buf, control_state := if s.flags.z then
        Label.tTrap else if s.dividend_hi.msb then Label.dvsn1 else Label.dvsp0, cycles := s.cycles + 2 } := by
  cases h : s.flags.n <;>
    simp [execDvs2, State.negate_eq, State.loadWorkingPair, State.close, State.readReg, State.writeReg, OutcomeTag.label, Config.cyclesPerState, h, State.setFlags]

theorem execDvsp0_eq : execDvsp0 s = .next { s with
        control_state := Label.dvsa, cycles := s.cycles + 2 } := by
  rfl

theorem execDvsn1_eq : execDvsn1 s = .next { s with
        alu_ext := 0x0000#16 - s.alu_ext, flags := subFlags 0x0000#16 s.alu_ext, control_state :=
        Label.dvsn2, cycles := s.cycles + 2 } := by
  simp [execDvsn1, State.negate_eq, State.readReg, State.writeReg, State.close, Config.cyclesPerState, State.setFlags]

theorem execDvsn2_eq : execDvsn2 s = .next { s with
        alu := 0x0000#16 - s.alu - (BitVec.ofBool s.flags.x).setWidth 16, control_state := Label.dvsa,
        cycles := s.cycles + 2 } := by
  simp [execDvsn2, State.issueSubx, subx16, State.operand, State.readReg, State.writeReg, State.close, Config.cyclesPerState, State.setFlags]

theorem execDvsa_eq : execDvsa s = .next { s with
        flags := testFlags s.flags s.alu, control_state := Label.dvsc, cycles := s.cycles + 2 } := by
  simp [execDvsa, State.test_eq, State.readReg, State.close, Config.cyclesPerState]

theorem execDvsc_eq : execDvsc s = .next { s with
        flags := subFlags s.alu s.alu_buf, control_state := Label.dvsk, cycles := s.cycles + 2 } := by
  simp [execDvsc, State.compare_eq, State.readReg, State.close, Config.cyclesPerState]

theorem execDvsk_eq : execDvsk s = .next { s with
        counter := 16#32, control_state := if s.flags.c then Label.dvssh0 else Label.dvso1, cycles :=
        s.cycles + 2 } := by
  rfl

theorem execDvso1_eq : execDvso1 s = .next { s with
        control_state := Label.dvsovx, cycles := s.cycles + 2 } := by
  rfl

theorem execDvsovx_eq : execDvsovx s = .next { s with
        control_state := Label.tOvf, cycles := s.cycles + 2 } := by
  rfl

theorem execDvssh0_eq : execDvssh0 s = .next { s with
        alu := shiftedAlu s, alu_ext := shiftedAluExt s false, counter := s.counter - 1#32,
        control_state := if s.counter = 1#32 then Label.dvsf2 else Label.dvssb, cycles := s.cycles + 2 } := by
  simp [execDvssh0, State.stepShift, State.issueShift_eq, State.close, State.signedShiftNext, State.lastStep, Config.cyclesPerState]

theorem execDvssh1_eq : execDvssh1 s = .next { s with
        alu := shiftedAlu s, alu_ext := shiftedAluExt s true, counter := s.counter - 1#32,
        control_state := if s.counter = 1#32 then Label.dvsf2 else Label.dvssb, cycles := s.cycles + 2 } := by
  simp [execDvssh1, State.stepShift, State.issueShift_eq, State.close, State.signedShiftNext, State.lastStep, Config.cyclesPerState]

theorem execDvssb_eq : execDvssb s = .next { s with
        addr_lo := s.alu, alu := s.alu - s.alu_buf, flags := subFlags s.alu s.alu_buf, control_state :=
        Label.dvsck, cycles := s.cycles + 2 } := by
  simp [execDvssb, State.trialSubtract_eq, State.close, Config.cyclesPerState]

theorem execDvsck_eq : execDvsck s = .next { s with
        control_state := if s.flags.c then Label.dvsrs else Label.dvssh1, cycles := s.cycles + 2 } := by
  rfl

theorem execDvsrs_eq : execDvsrs s = .next { s with
        alu := s.addr_lo, control_state := Label.dvssh0, cycles := s.cycles + 2 } := by
  rfl

theorem execDvsf2_eq : execDvsf2 s = .next { s with
        addr_lo := s.alu, alu := s.alu - s.alu_buf, flags := subFlags s.alu s.alu_buf, control_state :=
        Label.dvsf3, cycles := s.cycles + 2 } := by
  simp [execDvsf2, State.trialSubtract_eq, State.close, Config.cyclesPerState]

theorem execDvsf3_eq : execDvsf3 s = .next { s with
        addr_hi := if s.flags.c then s.addr_lo else s.alu, alu := shiftedAlu s, alu_ext :=
        shiftedAluExt s (!s.flags.c), control_state := Label.dvsf4, cycles := s.cycles + 2 } := by
  simp [execDvsf3, State.collectTrial_eq, State.close, Config.cyclesPerState]

theorem execDvsf4_eq : execDvsf4 s = .next { s with
        flags := testFlags s.flags s.divisor, control_state := Label.dvsf5, cycles := s.cycles + 2 } := by
  simp [execDvsf4, State.test_eq, State.readReg, State.close, Config.cyclesPerState]

theorem execDvsf5_eq : execDvsf5 s = .next { s with
        flags := testFlags s.flags s.dividend_hi, control_state := if s.flags.n then Label.dvsxn1 else
        Label.dvsxp1, cycles := s.cycles + 2 } := by
  simp [execDvsf5, State.test_eq, State.readReg, State.close, Config.cyclesPerState]

theorem execDvsxp1_eq : execDvsxp1 s = .next { s with
        flags := testFlags s.flags s.alu_ext, control_state := if s.flags.n then Label.dvspm2 else
        Label.dvspp2, cycles := s.cycles + 2 } := by
  simp [execDvsxp1, State.test_eq, State.readReg, State.close, Config.cyclesPerState]

theorem execDvsxn1_eq : execDvsxn1 s = .next { s with
        flags := testFlags s.flags s.alu_ext, control_state := if s.flags.n then Label.dvsmm2 else
        Label.dvsmp2, cycles := s.cycles + 2 } := by
  simp [execDvsxn1, State.test_eq, State.readReg, State.close, Config.cyclesPerState]

theorem execDvspp2_eq : execDvspp2 s = .next { s with
        addr_lo := s.alu_ext, control_state := if s.flags.n then Label.dvsovx else Label.dvswb, cycles
        := s.cycles + 2 } := by
  rfl

theorem execDvspm2_eq : execDvspm2 s = .next { s with
        addr_lo := 0x0000#16 - s.alu_ext, flags := subFlags 0x0000#16 s.alu_ext, control_state :=
        Label.dvspm3, cycles := s.cycles + 2 } := by
  simp [execDvspm2, State.negate_eq, State.readReg, State.writeReg, State.close, Config.cyclesPerState, State.setFlags]

theorem execDvspm3_eq : execDvspm3 s = .next { s with
        addr_hi := 0x0000#16 - s.addr_hi, flags := subFlags 0x0000#16 s.addr_hi, control_state := if
        s.flags.positive then Label.dvsovx else Label.dvswb, cycles := s.cycles + 2 } := by
  simp [execDvspm3, State.negate_eq, State.readReg, State.writeReg, State.close, Config.cyclesPerState, State.setFlags]

theorem execDvsmm2_eq : execDvsmm2 s = .next { s with
        addr_lo := s.alu_ext, control_state := Label.dvsmm3, cycles := s.cycles + 2 } := by
  rfl

theorem execDvsmm3_eq : execDvsmm3 s = .next { s with
        addr_hi := 0x0000#16 - s.addr_hi, flags := subFlags 0x0000#16 s.addr_hi, control_state := if
        s.flags.n then Label.dvsovx else Label.dvswb, cycles := s.cycles + 2 } := by
  simp [execDvsmm3, State.negate_eq, State.readReg, State.writeReg, State.close, Config.cyclesPerState, State.setFlags]

theorem execDvsmp2_eq : execDvsmp2 s = .next { s with
        addr_lo := 0x0000#16 - s.alu_ext, flags := subFlags 0x0000#16 s.alu_ext, control_state :=
        Label.dvsmp3, cycles := s.cycles + 2 } := by
  simp [execDvsmp2, State.negate_eq, State.readReg, State.writeReg, State.close, Config.cyclesPerState, State.setFlags]

theorem execDvsmp3_eq : execDvsmp3 s = .next { s with
        control_state := if s.flags.positive then Label.dvsovx else Label.dvswb, cycles := s.cycles + 2
        } := by
  rfl

theorem execDvswb_eq : execDvswb s = .next { s with
        dividend_hi := s.addr_hi, dividend_lo := s.addr_lo, control_state := Label.tNext, cycles :=
        s.cycles + 2 } := by
  rfl

end Sys2Proof.Machine
end

