-- ==== Sys2Proof/Laws/Step.lean ====
section
/-! SUPPORT. What a step does, said once: a running block executes the engine instruction its label selects, an idle one makes
the caller's move; and the laws of `runToTerminal`. -/

namespace Sys2Proof.Machine

theorem step_of_running {s : State} (h : s.done = false) : step s = runLabel s := by
  simp [step, State.nextMove, h]

theorem step_of_no_inputs {s : State} (h : s.inputs = []) : step s = runLabel s := by
  cases hd : s.done <;> simp [step, State.nextMove, hd, h]

theorem step_of_input {s : State} {m : CallerMove} {rest : List CallerMove} (h : s.done = true)
    (hi : s.inputs = m :: rest) : step s = makeMove m { s with inputs := rest } := by
  simp [step, State.nextMove, h, hi, State.dropMove]

theorem runLabel_of_decode {s : State} {i : Instr} (h : decodeLabel s.control_state = some i) : runLabel s = exec i s := by
  simp [runLabel, h]

/-- A step from the label of an engine instruction executes it. -/
theorem step_of_engine {s : State} (i : Instr) (hc : csCode i = some s.control_state) (he : isEngine i = true) :
    step s = exec i s := by
  rw [step_of_running (not_terminal_of_isEngine _ i hc he), runLabel_of_decode (decodeLabel_of_csCode _ i hc)]

/-- Everything a step of a running block can be. -/
theorem step_running_cases {s t : State} (hd : s.done = false) (h : step s = .next t) :
    ∃ i, isEngine i = true ∧ csCode i = some s.control_state ∧ exec i s = .next t := by
  rw [step_of_running hd, runLabel] at h
  cases hi : decodeLabel s.control_state with
  | none => rw [hi] at h; cases h
  | some i => exact ⟨i, isEngine_of_decodeLabel _ _ hi hd, csCode_of_decodeLabel _ _ hi, by rwa [hi] at h⟩

/-! ## Running to a terminal label -/

theorem runToTerminal_done {s : State} (h : s.done = true) (k : Nat) : runToTerminal k s = .next s := by
  cases k <;> simp [runToTerminal, h]

theorem runToTerminal_step {s t : State} (hd : s.done = false) (h : step s = .next t) (k : Nat) :
    runToTerminal (k + 1) s = runToTerminal k t := by
  simp [runToTerminal, hd, h]

/-- A step from the label of an engine instruction, in a run. -/
theorem run_label {s t : State} (i : Instr) (hc : csCode i = some s.control_state) (he : isEngine i = true)
    (h : exec i s = .next t) (k : Nat) : runToTerminal (k + 1) s = runToTerminal k t :=
  runToTerminal_step (not_terminal_of_isEngine _ i hc he) (by rw [step_of_engine i hc he, h]) k

theorem coreRun_succ {s u : State} (h : step s = .next u) (k : Nat) :
    Host.Core.run Sys2Proof.core (k + 1) s = Host.Core.run Sys2Proof.core k u := by
  have h' : Sys2Proof.core.step s = .next u := h
  simp only [Host.Core.run, h']

/-- A run to a terminal label is a run of the machine behind the host's interface, which is running until its last state. -/
theorem coreRun_of_runToTerminal {k : Nat} {s t : State} (h : runToTerminal k s = .next t) :
    ∃ j, j ≤ k ∧ Host.Core.run Sys2Proof.core j s = .next t ∧
      ∀ i, i < j → ∃ u : State, Host.Core.run Sys2Proof.core i s = .next u ∧ u.done = false := by
  induction k generalizing s with
  | zero => exact ⟨0, le_refl _, h, fun _ hi => absurd hi (Nat.not_lt_zero _)⟩
  | succ k ih =>
    cases hd : s.done with
    | true =>
      rw [runToTerminal_done hd] at h
      exact ⟨0, Nat.zero_le _, h, fun _ hi => absurd hi (Nat.not_lt_zero _)⟩
    | false =>
      simp only [runToTerminal, hd] at h
      cases hs : step s with
      | next u =>
        rw [hs] at h
        obtain ⟨j, hj, hrun, hall⟩ := ih h
        refine ⟨j + 1, Nat.succ_le_succ hj, (coreRun_succ hs j).trans hrun, fun i hi => ?_⟩
        cases i with
        | zero => exact ⟨s, rfl, hd⟩
        | succ i =>
          obtain ⟨v, hv, hvd⟩ := hall i (Nat.lt_of_succ_lt_succ hi)
          exact ⟨v, (coreRun_succ hs i).trans hv, hvd⟩
      | fault r => rw [hs] at h; exact absurd h (by simp)
      | refused r => rw [hs] at h; exact absurd h (by simp)

end Sys2Proof.Machine
end

