-- ==== Sys2Proof/Laws/Loop.lean ====
section
/-! SUPPORT. The loop invariant of restoring division (`42_divide_unsigned.md` R117), for both engines: what the registers hold
before a shift, and what one shift and one conditional subtraction make of it. -/

namespace Sys2Proof.Machine

/-- Before a shift with `m` steps to go: the quotient `Q` so far, the partial remainder `r`, the `lo` bits of the dividend `n`
not consumed, and `b`, the quotient bit that the shift is about to inject. -/
structure LoopAt (n d m Q r lo : Nat) (b : Bool) (s : State) : Prop where
  counter : s.counter.toNat = m
  steps : m ≤ 16
  buf : s.alu_buf.toNat = d
  alu : s.alu.toNat = r
  rem_lt : r < d
  quot_lt : Q < 2 ^ (16 - m)
  pending : b.toNat = Q % 2
  rest_lt : lo < 2 ^ m
  value : n = (Q * d + r) * 2 ^ m + lo
  ext : s.alu_ext.toNat = lo * 2 ^ (16 - m) + Q / 2

/-- What the steps of a loop leave alone in either engine. -/
structure LoopFrame (s t : State) : Prop where
  dividend_hi : t.dividend_hi = s.dividend_hi
  dividend_lo : t.dividend_lo = s.dividend_lo
  divisor : t.divisor = s.divisor
  pc_scratch : t.pc_scratch = s.pc_scratch
  addr_hi : t.addr_hi = s.addr_hi
  alu_buf : t.alu_buf = s.alu_buf
  inputs : t.inputs = s.inputs

theorem LoopFrame.refl (s : State) : LoopFrame s s := ⟨rfl, rfl, rfl, rfl, rfl, rfl, rfl⟩

theorem LoopFrame.trans {s t u : State} (h : LoopFrame s t) (k : LoopFrame t u) : LoopFrame s u :=
  ⟨k.1.trans h.1, k.2.trans h.2, k.3.trans h.3, k.4.trans h.4, k.5.trans h.5, k.6.trans h.6, k.7.trans h.7⟩

variable {n d m Q r lo : Nat} {b : Bool} {s : State}

/-- The bit of the dividend that the shift brings in is the top one of those not consumed. -/
theorem LoopAt.bitOf_eq (h : LoopAt n d (m + 1) Q r lo b s) : bitOf n m = lo / 2 ^ m := by
  have hn := h.value
  have hl := h.rest_lt
  have hp : 0 < 2 ^ m := by positivity
  have e : n = lo + 2 ^ m * (2 * (Q * d + r)) := by rw [hn]; ring
  rw [bitOf, e, Nat.add_mul_div_left _ _ hp, Nat.add_mul_mod_self_left]
  apply Nat.mod_eq_of_lt
  rw [Nat.div_lt_iff_lt_mul hp]
  rw [pow_succ] at hl
  omega

theorem bitOf_le_one (n m : Nat) : bitOf n m ≤ 1 := by unfold bitOf; omega

theorem LoopAt.rest_eq (h : LoopAt n d (m + 1) Q r lo b s) : lo = bitOf n m * 2 ^ m + lo % 2 ^ m := by
  rw [h.bitOf_eq, Nat.mul_comm]
  exact (Nat.div_add_mod lo (2 ^ m)).symm

/-- What `alu_ext` holds, the bit about to leave split off. -/
theorem LoopAt.ext_eq (h : LoopAt n d (m + 1) Q r lo b s) :
    s.alu_ext.toNat = bitOf n m * 32768 + lo % 2 ^ m * 2 ^ (15 - m) + Q / 2 ∧
      lo % 2 ^ m * 2 ^ (15 - m) + 2 ^ (15 - m) ≤ 32768 := by
  have hm := h.steps
  have hmP : 2 ^ m * 2 ^ (15 - m) = 32768 := by
    rw [← pow_add, show m + (15 - m) = 15 by omega]; norm_num
  constructor
  · rw [h.ext, show 16 - (m + 1) = 15 - m by omega]
    conv_lhs => rw [h.rest_eq]
    rw [Nat.add_mul, Nat.mul_assoc, hmP]
  · have hl : lo % 2 ^ m < 2 ^ m := Nat.mod_lt _ (by positivity)
    calc lo % 2 ^ m * 2 ^ (15 - m) + 2 ^ (15 - m) = (lo % 2 ^ m + 1) * 2 ^ (15 - m) := by ring
      _ ≤ 2 ^ m * 2 ^ (15 - m) := Nat.mul_le_mul_right _ hl
      _ = 32768 := hmP

/-- The shift of a step (R89, R117): the bit that leaves the top, the shifted `alu`, the shifted `alu_ext`. -/
theorem LoopAt.shifted (h : LoopAt n d (m + 1) Q r lo b s) :
    (s.alu.msb = true ↔ 65536 ≤ 2 * r + bitOf n m) ∧
      (shiftedAlu s).toNat = (2 * r + bitOf n m) % 65536 ∧
      (shiftedAluExt s b).toNat = lo % 2 ^ m * 2 ^ (16 - m) + Q := by
  obtain ⟨hext, hA⟩ := h.ext_eq
  have hm := h.steps
  have hq := h.quot_lt
  have hb := h.pending
  have hle := bitOf_le_one n m
  have halt := s.alu.isLt
  have hr := h.alu
  have hPP : 2 ^ (16 - m) = 2 * 2 ^ (15 - m) := by
    rw [← pow_succ', show 15 - m + 1 = 16 - m by omega]
  rw [show 16 - (m + 1) = 15 - m by omega] at hq
  rw [shiftedAlu_toNat, shiftedAluExt_toNat, msb_eq_decide_le, decide_eq_true_eq, hext, hr, hPP,
    show lo % 2 ^ m * (2 * 2 ^ (15 - m)) = 2 * (lo % 2 ^ m * 2 ^ (15 - m)) by ring]
  generalize lo % 2 ^ m * 2 ^ (15 - m) = A at *
  generalize 2 ^ (15 - m) = P at *
  rcases Nat.le_one_iff_eq_zero_or_eq_one.mp hle with h0 | h0 <;> rw [h0] <;> omega

/-- The invariant after a step with quotient bit `q`. -/
theorem LoopAt.next (h : LoopAt n d (m + 2) Q r lo b s) {t : State} {q : Bool} {r' : Nat}
    (hr : 2 * r + bitOf n (m + 1) = q.toNat * d + r') (hlt : r' < d) (hc : t.counter = s.counter - 1#32)
    (hbuf : t.alu_buf = s.alu_buf) (halu : t.alu.toNat = r') (hext : t.alu_ext = shiftedAluExt s b) :
    LoopAt n d (m + 1) (2 * Q + q.toNat) r' (lo % 2 ^ (m + 1)) q t := by
  have hm := h.steps
  have hcnt := h.counter
  have hQ := h.quot_lt
  have hq := q.toNat_le
  refine ⟨?_, by omega, by rw [hbuf]; exact h.buf, halu, hlt, ?_, by omega, Nat.mod_lt _ (by positivity), ?_, ?_⟩
  · rw [hc, BitVec.toNat_sub, hcnt]; simp; omega
  · rw [show 16 - (m + 1) = 16 - (m + 2) + 1 by omega, pow_succ']; omega
  · have e : (Q * d + r) * 2 ^ (m + 2) = (2 * Q * d + 2 * r) * 2 ^ (m + 1) := by ring
    have e2 : (2 * Q + q.toNat) * d + r' = 2 * Q * d + (2 * r + bitOf n (m + 1)) := by rw [hr]; ring
    conv_lhs => rw [h.value, h.rest_eq]
    rw [e, e2]; ring
  · rw [hext, h.shifted.2.2, show (2 * Q + q.toNat) / 2 = Q by omega]

/-- While two or more steps are left, the counter is not 1 (R18). -/
theorem LoopAt.counter_ne_one (h : LoopAt n d (m + 2) Q r lo b s) : s.counter ≠ 1#32 := by
  intro e
  have := h.counter
  rw [e] at this
  simp at this

/-- Before the sixteenth shift: the counter, and quotient and remainder of the dividend without its last bit. -/
theorem LoopAt.last (h : LoopAt n d 1 Q r lo b s) :
    s.counter = 1#32 ∧ n / 2 = Q * d + r ∧ n / 2 / d = Q ∧ n / 2 % d = r ∧ lastShifted n d = 2 * r + bitOf n 0 := by
  have hl := h.rest_lt
  have hr := h.rem_lt
  have hv := h.value
  have hn : n / 2 = Q * d + r := by omega
  have hd : 0 < d := by omega
  have hmod : n / 2 % d = r := by rw [hn, Nat.add_comm, Nat.add_mul_mod_self_right, Nat.mod_eq_of_lt hr]
  refine ⟨BitVec.eq_of_toNat_eq (by simpa using h.counter), hn, ?_, hmod, ?_⟩
  · rw [hn, Nat.add_comm, Nat.add_mul_div_right _ _ hd, Nat.div_eq_of_lt hr, Nat.zero_add]
  · rw [lastShifted, hmod]; simp [bitOf]

/-- The invariant before the first shift: the working pair holds the dividend, whose high half is below the divisor. -/
theorem LoopAt.start (hc : s.counter = 16#32) (hbuf : s.alu_buf.toNat = d) (hlt : s.alu.toNat < d) :
    LoopAt s.workingPair.toNat d 16 0 s.alu.toNat s.alu_ext.toNat false s := by
  refine ⟨by rw [hc]; rfl, le_refl _, hbuf, rfl, hlt, by simp, by simp, s.alu_ext.isLt, ?_, by simp⟩
  rw [State.workingPair, pair_toNat]; simp

/-- Quotient and remainder after the sixteenth step, which subtracts the divisor when it can. -/
theorem LoopAt.result (h : LoopAt n d 1 Q r lo b s) :
    n / d = 2 * Q + (if d ≤ 2 * r + bitOf n 0 then 1 else 0) ∧
      n % d = 2 * r + bitOf n 0 - (if d ≤ 2 * r + bitOf n 0 then d else 0) := by
  obtain ⟨-, hn, -, -, -⟩ := h.last
  have hr := h.rem_lt
  have hb : bitOf n 0 = n % 2 := by simp [bitOf]
  have hd : 0 < d := by omega
  have hv : n = (2 * r + bitOf n 0) + (2 * Q) * d := by
    rw [hb]
    have : n = 2 * (Q * d + r) + n % 2 := by omega
    calc n = 2 * (Q * d + r) + n % 2 := this
      _ = _ := by ring
  have hle := bitOf_le_one n 0
  generalize bitOf n 0 = t at *
  subst hv
  rw [Nat.add_mul_div_right _ _ hd, Nat.add_mul_mod_self_right]
  split
  · next hc =>
    rw [Nat.div_eq_of_lt_le (k := 1) (by omega) (by omega), Nat.mod_eq_sub_mod hc, Nat.mod_eq_of_lt (by omega)]
    exact ⟨by omega, rfl⟩
  · rw [Nat.div_eq_of_lt (by omega), Nat.mod_eq_of_lt (by omega)]
    exact ⟨by omega, rfl⟩

/-! ## The stash of the last trial (R120) -/

/-- The value a step forms, from the partial remainder before it (R117). -/
theorem LoopAt.shiftedAt_eq (h : LoopAt n d (m + 1) Q r lo b s) : shiftedAt n d m = 2 * r + bitOf n m := by
  have hq : n / 2 ^ (m + 1) = Q * d + r := by
    rw [h.value, Nat.add_comm, Nat.add_mul_div_right _ _ (by positivity), Nat.div_eq_of_lt h.rest_lt, Nat.zero_add]
  rw [shiftedAt, hq, Nat.add_comm (Q * d), Nat.add_mul_mod_self_right, Nat.mod_eq_of_lt h.rem_lt]

/-- Before the first step the stash is the entry value. -/
theorem StashedByLastTrial.start (n d : Nat) (entry : Word) : StashedByLastTrial n d 16 entry entry :=
  ⟨fun _ h h' => absurd h' (Nat.not_lt.mpr h), fun _ => rfl⟩

variable {entry stash stash' : Word}

/-- A forced step leaves the stash alone. -/
theorem StashedByLastTrial.forced (h : StashedByLastTrial n d (m + 1) entry stash) (hf : 65536 ≤ shiftedAt n d m) :
    StashedByLastTrial n d m entry stash := by
  refine ⟨fun i hi h16 hlt hall => ?_, fun hall => h.2 fun i hi => hall i (by omega)⟩
  have hne : i ≠ m := by rintro rfl; omega
  exact h.1 i (by omega) h16 hlt fun j hj => hall j (by omega)

/-- A step that makes a trial stashes the value it forms. -/
theorem StashedByLastTrial.trial (hm : m < 16) (hlt : shiftedAt n d m < 65536) (hs : stash'.toNat = shiftedAt n d m) :
    StashedByLastTrial n d m entry stash' := by
  refine ⟨fun i hi _ _ hall => ?_, fun hall => absurd (hall m (le_refl m) hm) (Nat.not_le.mpr hlt)⟩
  rcases Nat.eq_or_lt_of_le hi with rfl | hlt'
  · exact hs
  · exact absurd (hall m (le_refl m) hlt') (Nat.not_le.mpr hlt)

/-! ## The sixteenth step -/

/-- The last quotient bit: the sixteenth step is forced or its trial does not borrow (R112 to R115, R147). -/
def lastBit (s : State) : Bool := s.alu.msb || decide (s.alu_buf.toNat ≤ (shiftedAlu s).toNat)

/-- What the collect puts into `addr_hi` (R114, R115, R147). -/
def collectedRemainder (s : State) : Word := if lastBit s then shiftedAlu s - s.alu_buf else shiftedAlu s

/-- What the collect leaves in `alu_ext` (R114, R115, R147). -/
def collectedQuotient (s : State) (b : Bool) : Word := (shiftedAluExt s b).extractLsb' 0 15 ++ BitVec.ofBool (lastBit s)

/-- What the collect leaves in `alu`: the difference shifted, "meaningless" (R114, R120). -/
def collectedAlu (s : State) (b : Bool) : Word :=
  (shiftedAlu s - s.alu_buf).extractLsb' 0 15 ++ BitVec.ofBool ((shiftedAluExt s b).getLsbD 15)

theorem LoopAt.lastBit_iff (h : LoopAt n d 1 Q r lo b s) : lastBit s = true ↔ d ≤ 2 * r + bitOf n 0 := by
  obtain ⟨f1, f2, -⟩ := h.shifted
  have hr := h.rem_lt
  have hd := h.buf
  have hlt := s.alu_buf.isLt
  have hle := bitOf_le_one n 0
  rw [lastBit, Bool.or_eq_true, f1, decide_eq_true_eq]
  omega

/-- The remainder collected (R117, R118). -/
theorem LoopAt.collectedRemainder_toNat (h : LoopAt n d 1 Q r lo b s) : (collectedRemainder s).toNat = n % d := by
  obtain ⟨-, f2, -⟩ := h.shifted
  have hq := h.lastBit_iff
  have hr := h.rem_lt
  have hd := h.buf
  have hlt := s.alu_buf.isLt
  have hle := bitOf_le_one n 0
  rw [h.result.2, collectedRemainder]
  by_cases hc : d ≤ 2 * r + bitOf n 0
  · rw [if_pos (hq.mpr hc), if_pos hc, BitVec.toNat_sub, f2, hd]; omega
  · rw [if_neg (fun e => hc (hq.mp e)), if_neg hc, f2]; omega

/-- The quotient collected (R117, R118): all sixteen bits of it. -/
theorem LoopAt.collectedQuotient_toNat (h : LoopAt n d 1 Q r lo b s) : (collectedQuotient s b).toNat = n / d := by
  obtain ⟨-, -, f3⟩ := h.shifted
  have hq := h.lastBit_iff
  have hQ := h.quot_lt
  have e : (collectedQuotient s b).toNat = 2 * ((shiftedAluExt s b).toNat % 32768) + (lastBit s).toNat := by
    rw [collectedQuotient, BitVec.toNat_append, BitVec.extractLsb'_toNat, BitVec.toNat_ofBool]
    have := (lastBit s).toNat_le
    rw [← Nat.shiftLeft_add_eq_or_of_lt (by omega), Nat.shiftLeft_eq]
    simp; omega
  rw [h.result.1, e, f3, Nat.pow_zero, Nat.mod_one, Nat.zero_mul, Nat.zero_add]
  by_cases hc : d ≤ 2 * r + bitOf n 0
  · rw [hq.mpr hc, if_pos hc]; simp; omega
  · rw [Bool.eq_false_iff.mpr (fun e => hc (hq.mp e)), if_neg hc]; simp; omega

/-- What the sixteenth step compares with the divisor, as a word (R120, R164). -/
theorem LoopAt.shiftedAlu_last (h : LoopAt n d 1 Q r lo b s) : shiftedAlu s = BitVec.ofNat 16 (lastShifted n d) := by
  apply BitVec.eq_of_toNat_eq
  rw [h.shifted.2.1, h.last.2.2.2.2, BitVec.toNat_ofNat]

/-- `alu` at the end (R120). -/
theorem LoopAt.collectedAlu_eq (h : LoopAt n d 1 Q r lo b s) :
    collectedAlu s b = BitVec.ofNat 16 (2 * (lastShifted n d + 65536 - d)) := by
  obtain ⟨-, f2, f3⟩ := h.shifted
  have hQ := h.quot_lt
  have hd := h.buf
  have hlt := s.alu_buf.isLt
  have hb : (shiftedAluExt s b).getLsbD 15 = false := by
    rw [← msb_eq_bit15, msb_eq_decide_le, f3]
    simp [Nat.mod_one]; omega
  apply BitVec.eq_of_toNat_eq
  rw [h.last.2.2.2.2, collectedAlu, hb, BitVec.toNat_append, BitVec.extractLsb'_toNat, BitVec.toNat_ofNat,
    BitVec.toNat_sub, f2, hd]
  simp [Nat.shiftLeft_eq]; omega

/-- `addr_lo` at the end of the unsigned engine, the sixteenth step included (R120). -/
theorem LoopAt.stash_last {entry : Word} (h : LoopAt n d 1 Q r lo b s) (hs : StashedByLastTrial n d 1 entry s.addr_lo) :
    StashedByLastTrial n d 0 entry (if s.alu.msb then s.addr_lo else shiftedAlu s) := by
  obtain ⟨f1, f2, -⟩ := h.shifted
  have he := h.shiftedAt_eq
  cases hm : s.alu.msb
  · have hlt : ¬ 65536 ≤ 2 * r + bitOf n 0 := by rw [← f1, hm]; simp
    exact .trial (by omega) (by omega) (by rw [if_neg (by simp)]; omega)
  · exact hs.forced (by rw [he]; exact f1.mp hm)

end Sys2Proof.Machine
end

