-- ==== Sys2Proof/Laws/PerInstr.lean ====
section
/-! SUPPORT. Round trip per instruction: the decoder reads a well-formed instruction back from its code, with every operand at
every value (`30_encoding.md` R50 to R57). -/

namespace Sys2Proof.Laws.RoundTrip

/-- No part of the instruction is lost in its code. -/
def Statement (i : Instr) : Prop := i.wellFormed = true → decode (encode i) = .instr i

theorem divideUnsigned : Statement .divideUnsigned := fun _ => rfl
theorem divideSigned : Statement .divideSigned := fun _ => rfl
theorem and (a b : AluOperand) (r : Option Reg16) : Statement (.and a b r) := fun _ => rfl
theorem sub (a b : AluOperand) (r : Option Reg16) : Statement (.sub a b r) := fun _ => rfl
theorem subExtended (a b : AluOperand) (r : Option Reg16) : Statement (.subExtended a b r) := fun _ => rfl
theorem shiftLeftPair (b : Bool) : Statement (.shiftLeftPair b) := fun _ => rfl
theorem tNext : Statement .tNext := fun _ => rfl
theorem tTrap : Statement .tTrap := fun _ => rfl
theorem tOvf : Statement .tOvf := fun _ => rfl
theorem tAddr : Statement .tAddr := fun _ => rfl
theorem dvu1 : Statement .dvu1 := fun _ => rfl
theorem dvu2 : Statement .dvu2 := fun _ => rfl
theorem dvu3 : Statement .dvu3 := fun _ => rfl
theorem dvuo1 : Statement .dvuo1 := fun _ => rfl
theorem dvuo2 : Statement .dvuo2 := fun _ => rfl
theorem dvush0 : Statement .dvush0 := fun _ => rfl
theorem dvush1 : Statement .dvush1 := fun _ => rfl
theorem dvusbf : Statement .dvusbf := fun _ => rfl
theorem dvusbt : Statement .dvusbt := fun _ => rfl
theorem dvuchk : Statement .dvuchk := fun _ => rfl
theorem dvurst : Statement .dvurst := fun _ => rfl
theorem dvuf2f : Statement .dvuf2f := fun _ => rfl
theorem dvuf2t : Statement .dvuf2t := fun _ => rfl
theorem dvuf3f : Statement .dvuf3f := fun _ => rfl
theorem dvuf3t : Statement .dvuf3t := fun _ => rfl
theorem dvuf4 : Statement .dvuf4 := fun _ => rfl
theorem dvs1 : Statement .dvs1 := fun _ => rfl
theorem dvs2 : Statement .dvs2 := fun _ => rfl
theorem dvsp0 : Statement .dvsp0 := fun _ => rfl
theorem dvsn1 : Statement .dvsn1 := fun _ => rfl
theorem dvsn2 : Statement .dvsn2 := fun _ => rfl
theorem dvsa : Statement .dvsa := fun _ => rfl
theorem dvsc : Statement .dvsc := fun _ => rfl
theorem dvsk : Statement .dvsk := fun _ => rfl
theorem dvso1 : Statement .dvso1 := fun _ => rfl
theorem dvsovx : Statement .dvsovx := fun _ => rfl
theorem dvssh0 : Statement .dvssh0 := fun _ => rfl
theorem dvssh1 : Statement .dvssh1 := fun _ => rfl
theorem dvssb : Statement .dvssb := fun _ => rfl
theorem dvsck : Statement .dvsck := fun _ => rfl
theorem dvsrs : Statement .dvsrs := fun _ => rfl
theorem dvsf2 : Statement .dvsf2 := fun _ => rfl
theorem dvsf3 : Statement .dvsf3 := fun _ => rfl
theorem dvsf4 : Statement .dvsf4 := fun _ => rfl
theorem dvsf5 : Statement .dvsf5 := fun _ => rfl
theorem dvsxp1 : Statement .dvsxp1 := fun _ => rfl
theorem dvsxn1 : Statement .dvsxn1 := fun _ => rfl
theorem dvspp2 : Statement .dvspp2 := fun _ => rfl
theorem dvspm2 : Statement .dvspm2 := fun _ => rfl
theorem dvspm3 : Statement .dvspm3 := fun _ => rfl
theorem dvsmm2 : Statement .dvsmm2 := fun _ => rfl
theorem dvsmm3 : Statement .dvsmm3 := fun _ => rfl
theorem dvsmp2 : Statement .dvsmp2 := fun _ => rfl
theorem dvsmp3 : Statement .dvsmp3 := fun _ => rfl
theorem dvswb : Statement .dvswb := fun _ => rfl
theorem normal : Statement .normal := fun _ => rfl
theorem divisionByZero : Statement .divisionByZero := fun _ => rfl
theorem overflow : Statement .overflow := fun _ => rfl

end Sys2Proof.Laws.RoundTrip
end

