-- ==== Sys2Proof/Laws/Signed.lean ====
section
/-! SUPPORT. The signed division as a run of control states: absolute values and early test, one loop step, the finish, the
fix-up of each quadrant (`43_divide_signed.md` R130 to R163). `b` is the quotient bit waiting in the choice of the shift label. -/

namespace Sys2Proof.Machine

/-! ## Absolute values (R93, R130) -/

theorem negate_toNat (v : Word) : (0#16 - v).toNat = (65536 - v.toNat) % 65536 := by
  simp

/-- The absolute value of a signed word, as an unsigned number (R16). -/
theorem abs_word_toNat (v : Word) : (if v.msb then 0#16 - v else v).toNat = v.toInt.natAbs := by
  have h := v.isLt
  rw [msb_eq_decide_le, BitVec.toInt_eq_toNat_cond]
  by_cases hc : 0x8000 ≤ v.toNat
  · rw [if_pos (by simpa using hc), negate_toNat]; split <;> omega
  · rw [if_neg (by simpa using hc)]; split <;> omega

theorem msb_eq_decide_neg (v : Word) : v.msb = decide (v.toInt < 0) := BitVec.msb_eq_toInt

theorem toInt_eq_zero_iff (v : Word) : v.toInt = 0 ↔ v.toNat = 0 := by
  have h := v.isLt
  rw [BitVec.toInt_eq_toNat_cond]; split <;> omega

/-- The negate of both limbs, the borrow of the low one carried in X (R93). -/
theorem negate_pair_toNat (h l : Word) :
    (pair (0#16 - h - (BitVec.ofBool (decide ((0 : Word).toNat < l.toNat))).setWidth 16) (0#16 - l)).toNat =
      (2 ^ 32 - (pair h l).toNat) % 2 ^ 32 := by
  have hh := h.isLt
  have hl := l.isLt
  rw [pair_toNat, pair_toNat, BitVec.toNat_sub, negate_toNat, negate_toNat]
  by_cases hc : 0 < l.toNat
  · simp [hc]; omega
  · simp [hc]; omega

/-- The sign of a dividend is the top bit of its high half. -/
theorem pair_toInt_neg_iff (h l : Word) : (pair h l).toInt < 0 ↔ h.msb = true := by
  have hh := h.isLt
  have hl := l.isLt
  rw [BitVec.toInt_eq_toNat_cond, pair_toNat, msb_eq_decide_le, decide_eq_true_eq]
  split <;> omega

theorem pair_natAbs_of_neg {h l : Word} (hs : h.msb = true) :
    (pair h l).toInt.natAbs = (2 ^ 32 - (pair h l).toNat) % 2 ^ 32 := by
  have hh := h.isLt
  have hl := l.isLt
  rw [msb_eq_decide_le, decide_eq_true_eq] at hs
  rw [BitVec.toInt_eq_toNat_cond, pair_toNat]
  split <;> omega

theorem pair_natAbs_of_not_neg {h l : Word} (hs : h.msb = false) : (pair h l).toInt.natAbs = (pair h l).toNat := by
  have hh := h.isLt
  have hl := l.isLt
  rw [msb_eq_decide_le, decide_eq_false_iff_not] at hs
  rw [BitVec.toInt_eq_toNat_cond, pair_toNat]
  split <;> omega

variable {s : State} {b : Bool}

/-! ## Setup, absolute values, early test (R131 to R138) -/

/-- The states between `DVS1` and the early decision that do not depend on the dividend's sign: `DVSA`, `DVSC`, `DVSK`. -/
theorem run_signedEarlyTest (h : s.control_state = Label.dvsa) (k : Nat) :
    runToTerminal (k + 3) s = runToTerminal k { s with
      flags := subFlags s.alu s.alu_buf, counter := 16#32,
      control_state := if s.alu.toNat < s.alu_buf.toNat then Label.dvssh0 else Label.dvso1, cycles := s.cycles + 6 } := by
  rw [run_label .dvsa (by rw [h]; rfl) rfl (execDvsa_eq s), run_label .dvsc rfl rfl (execDvsc_eq _),
    run_label .dvsk rfl rfl (execDvsk_eq _)]
  simp [subFlags]

/-- Division by zero: two control states (R130, R132). -/
theorem run_signedDivisionByZero (h : s.control_state = Label.dvs1) (hz : s.divisor.toNat = 0) (k : Nat) :
    runToTerminal (k + 2) s = .next { s with
      alu_buf := s.divisor, alu := s.dividend_hi, alu_ext := s.dividend_lo, flags := subFlags 0#16 s.divisor,
      control_state := Label.tTrap, cycles := s.cycles + 4 } := by
  have hz' : s.divisor = 0#16 := BitVec.eq_of_toNat_eq (by simpa using hz)
  rw [run_label .dvs1 (by rw [h]; rfl) rfl (execDvs1_eq s), run_label .dvs2 rfl rfl (execDvs2_eq _),
    runToTerminal_done (by simp [testFlags, hz, State.done, isTerminalLabel])]
  simp [testFlags, hz']

/-- What `alu_buf` holds after the setup (R132). -/
def absDivisor (s : State) : Word := if s.divisor.msb then 0#16 - s.divisor else s.divisor

/-- From the entry label to the early decision, dividend not negative: six control states (R131 to R133, R136 to R138). -/
theorem run_signedSetupPlus (h : s.control_state = Label.dvs1) (hz : s.divisor.toNat ≠ 0)
    (hs : s.dividend_hi.msb = false) (k : Nat) :
    runToTerminal (k + 6) s = runToTerminal k { s with
      alu_buf := absDivisor s, alu := s.dividend_hi, alu_ext := s.dividend_lo, counter := 16#32,
      flags := subFlags s.dividend_hi (absDivisor s),
      control_state := if s.dividend_hi.toNat < (absDivisor s).toNat then Label.dvssh0 else Label.dvso1,
      cycles := s.cycles + 12 } := by
  rw [run_label .dvs1 (by rw [h]; rfl) rfl (execDvs1_eq s), run_label .dvs2 rfl rfl (execDvs2_eq _),
    run_label .dvsp0 (by simp [testFlags, hz, hs]; rfl) rfl (execDvsp0_eq _), run_signedEarlyTest rfl]
  simp only [absDivisor, msb_eq_decide_le]
  rfl

/-- From the entry label to the early decision, dividend negative: seven control states (R131, R132, R134 to R138). -/
theorem run_signedSetupMinus (h : s.control_state = Label.dvs1) (hz : s.divisor.toNat ≠ 0)
    (hs : s.dividend_hi.msb = true) (k : Nat) :
    runToTerminal (k + 7) s = runToTerminal k { s with
      alu_buf := absDivisor s,
      alu := 0#16 - s.dividend_hi - (BitVec.ofBool (decide ((0 : Word).toNat < s.dividend_lo.toNat))).setWidth 16,
      alu_ext := 0#16 - s.dividend_lo, counter := 16#32,
      flags := subFlags
        (0#16 - s.dividend_hi - (BitVec.ofBool (decide ((0 : Word).toNat < s.dividend_lo.toNat))).setWidth 16)
        (absDivisor s),
      control_state :=
        if (0#16 - s.dividend_hi - (BitVec.ofBool (decide ((0 : Word).toNat < s.dividend_lo.toNat))).setWidth 16).toNat <
          (absDivisor s).toNat then Label.dvssh0 else Label.dvso1,
      cycles := s.cycles + 14 } := by
  rw [run_label .dvs1 (by rw [h]; rfl) rfl (execDvs1_eq s), run_label .dvs2 rfl rfl (execDvs2_eq _),
    run_label .dvsn1 (by simp [testFlags, hz, hs]; rfl) rfl (execDvsn1_eq _),
    run_label .dvsn2 rfl rfl (execDvsn2_eq _), run_signedEarlyTest rfl]
  simp only [absDivisor, msb_eq_decide_le]
  rfl

/-- From the entry label to the early decision: six control states, seven for a negative dividend. The working pair holds the
absolute dividend, `alu_buf` the absolute divisor. -/
theorem run_signedSetup (h : s.control_state = Label.dvs1) (hz : s.divisor.toNat ≠ 0) :
    ∃ (j : Nat) (u : State), j = (if s.dividend.toInt < 0 then 7 else 6) ∧
      (∀ k, runToTerminal (k + j) s = runToTerminal k u) ∧
      u.control_state = (if u.alu.toNat < u.alu_buf.toNat then Label.dvssh0 else Label.dvso1) ∧
      u.workingPair.toNat = s.dividend.toInt.natAbs ∧ u.alu_buf.toNat = s.divisor.toInt.natAbs ∧
      u.flags = subFlags u.alu u.alu_buf ∧ u.counter = 16#32 ∧ u.cycles = s.cycles + 2 * j ∧
      u.dividend_hi = s.dividend_hi ∧ u.dividend_lo = s.dividend_lo ∧ u.divisor = s.divisor ∧
      u.pc_scratch = s.pc_scratch ∧ u.addr_hi = s.addr_hi ∧ u.addr_lo = s.addr_lo ∧ u.inputs = s.inputs := by
  cases hs : s.dividend_hi.msb
  · refine ⟨6, _, ?_, run_signedSetupPlus h hz hs, rfl, (pair_natAbs_of_not_neg hs).symm, abs_word_toNat _, rfl, rfl, rfl,
      rfl, rfl, rfl, rfl, rfl, rfl, rfl⟩
    rw [if_neg]; rw [State.dividend, pair_toInt_neg_iff, hs]; simp
  · refine ⟨7, _, ?_, run_signedSetupMinus h hz hs, rfl, ?_, abs_word_toNat _, rfl, rfl, rfl,
      rfl, rfl, rfl, rfl, rfl, rfl, rfl⟩
    · rw [if_pos]; rw [State.dividend, pair_toInt_neg_iff, hs]
    · rw [State.dividend, pair_natAbs_of_neg hs]
      exact negate_pair_toNat _ _

/-- The overflow exit of the early test: two control states (R139, R140). -/
theorem run_signedEarlyOverflow (h : s.control_state = Label.dvso1) (k : Nat) :
    runToTerminal (k + 2) s = .next { s with control_state := Label.tOvf, cycles := s.cycles + 4 } := by
  rw [run_label .dvso1 (by rw [h]; rfl) rfl (execDvso1_eq s), run_label .dvsovx rfl rfl (execDvsovx_eq _)]
  exact runToTerminal_done rfl k

/-! ## The loop (R141 to R145) -/

/-- The shift state that injects `b`. -/
def signedShiftLabel (b : Bool) : LabelCode := if b then Label.dvssh1 else Label.dvssh0

/-- A shift state of the signed engine, whichever bit it injects (R141, R142). -/
theorem run_signedShift (h : s.control_state = signedShiftLabel b) (k : Nat) :
    runToTerminal (k + 1) s = runToTerminal k { s with
      alu := shiftedAlu s, alu_ext := shiftedAluExt s b, counter := s.counter - 1#32,
      control_state := if s.counter = 1#32 then Label.dvsf2 else Label.dvssb, cycles := s.cycles + 2 } := by
  cases b
  · exact run_label .dvssh0 (by rw [h]; rfl) rfl (execDvssh0_eq s) k
  · exact run_label .dvssh1 (by rw [h]; rfl) rfl (execDvssh1_eq s) k

/-- The trial subtract of a step. -/
theorem run_signedTrial (h : s.control_state = signedShiftLabel b) (hc : s.counter ≠ 1#32) (k : Nat) :
    runToTerminal (k + 3) s = runToTerminal k { s with
      addr_lo := shiftedAlu s, alu := shiftedAlu s - s.alu_buf, alu_ext := shiftedAluExt s b, counter := s.counter - 1#32,
      flags := subFlags (shiftedAlu s) s.alu_buf,
      control_state := if (shiftedAlu s).toNat < s.alu_buf.toNat then Label.dvsrs else Label.dvssh1,
      cycles := s.cycles + 6 } := by
  rw [run_signedShift h, if_neg hc, run_label .dvssb rfl rfl (execDvssb_eq _), run_label .dvsck rfl rfl (execDvsck_eq _)]
  simp [subFlags]

/-- A taken step: three control states. -/
theorem run_signedTaken (h : s.control_state = signedShiftLabel b) (hc : s.counter ≠ 1#32)
    (hd : s.alu_buf.toNat ≤ (shiftedAlu s).toNat) (k : Nat) :
    runToTerminal (k + 3) s = runToTerminal k { s with
      addr_lo := shiftedAlu s, alu := shiftedAlu s - s.alu_buf, alu_ext := shiftedAluExt s b, counter := s.counter - 1#32,
      flags := subFlags (shiftedAlu s) s.alu_buf, control_state := signedShiftLabel true, cycles := s.cycles + 6 } := by
  rw [run_signedTrial h hc, if_neg (by omega)]
  rfl

/-- A step that is not taken: four control states. -/
theorem run_signedNotTaken (h : s.control_state = signedShiftLabel b) (hc : s.counter ≠ 1#32)
    (hd : (shiftedAlu s).toNat < s.alu_buf.toNat) (k : Nat) :
    runToTerminal (k + 4) s = runToTerminal k { s with
      addr_lo := shiftedAlu s, alu := shiftedAlu s, alu_ext := shiftedAluExt s b, counter := s.counter - 1#32,
      flags := subFlags (shiftedAlu s) s.alu_buf, control_state := signedShiftLabel false, cycles := s.cycles + 8 } := by
  rw [run_signedTrial h hc, if_pos hd]
  exact run_label .dvsrs rfl rfl (execDvsrs_eq _) k

/-- With a divisor of at most 32768 no bit is lost by a shift (R160). -/
theorem LoopAt.signed_shifted {n d m Q r lo : Nat} (h : LoopAt n d (m + 1) Q r lo b s) (hd : d ≤ 32768) :
    s.alu.msb = false ∧ (shiftedAlu s).toNat = 2 * r + bitOf n m := by
  obtain ⟨f1, f2, -⟩ := h.shifted
  have hr := h.rem_lt
  have hle := bitOf_le_one n m
  refine ⟨?_, by omega⟩
  rw [← Bool.not_eq_true, f1]
  omega

/-- One loop step, of `j` control states, from the invariant to the invariant. -/
theorem signed_loop_step {n d m Q r lo : Nat} (hd : d ≤ 32768) (h : LoopAt n d (m + 2) Q r lo b s)
    (hl : s.control_state = signedShiftLabel b) :
    ∃ (j : Nat) (t : State) (q : Bool) (r' lo' : Nat), j ≤ 4 ∧ (∀ k, runToTerminal (k + j) s = runToTerminal k t) ∧
      LoopAt n d (m + 1) (2 * Q + q.toNat) r' lo' q t ∧ t.control_state = signedShiftLabel q ∧
      t.cycles = s.cycles + 2 * j ∧ statesSSteps n d (m + 1) r = j + statesSSteps n d m r' ∧ LoopFrame s t := by
  have hc := h.counter_ne_one
  obtain ⟨-, hs⟩ := h.signed_shifted hd
  have hbuf := h.buf
  have hr := h.rem_lt
  have hle := bitOf_le_one n (m + 1)
  rw [statesSSteps]
  by_cases hq : d ≤ 2 * r + bitOf n (m + 1)
  · refine ⟨3, _, true, 2 * r + bitOf n (m + 1) - d, _, by omega, run_signedTaken hl hc (by omega),
      h.next (by simp; omega) (by omega) rfl rfl ?_ rfl, rfl, rfl, if_pos hq, ⟨rfl, rfl, rfl, rfl, rfl, rfl, rfl⟩⟩
    simp only [BitVec.toNat_sub, hs]
    omega
  · exact ⟨4, _, false, 2 * r + bitOf n (m + 1), _, by omega, run_signedNotTaken hl hc (by omega),
      h.next (by simp) (by omega) rfl rfl hs rfl, rfl, rfl, if_neg hq, ⟨rfl, rfl, rfl, rfl, rfl, rfl, rfl⟩⟩

/-- The loop: all steps but the sixteenth. -/
theorem signed_loop {n d : Nat} (hd : d ≤ 32768) (m : Nat) {Q r lo : Nat} {b : Bool} {s : State}
    (h : LoopAt n d (m + 1) Q r lo b s) (hl : s.control_state = signedShiftLabel b) :
    ∃ (j : Nat) (t : State) (b' : Bool) (Q' r' lo' : Nat), j ≤ 4 * m ∧
      (∀ k, runToTerminal (k + j) s = runToTerminal k t) ∧ LoopAt n d 1 Q' r' lo' b' t ∧
      t.control_state = signedShiftLabel b' ∧ t.cycles = s.cycles + 2 * j ∧ j = statesSSteps n d m r ∧
      LoopFrame s t := by
  induction m generalizing Q r lo b s with
  | zero => exact ⟨0, s, b, Q, r, lo, le_refl _, fun _ => rfl, h, hl, rfl, rfl, .refl s⟩
  | succ m ih =>
    obtain ⟨j, t, q, r₁, lo₁, hj, hrun, hat, hlab, hcyc, hcost, hf⟩ := signed_loop_step hd h hl
    obtain ⟨i, u, q', Q', r', lo', hi, hrun', hat', hlab', hcyc', hcost', hf'⟩ := ih hat hlab
    refine ⟨i + j, u, q', Q', r', lo', by omega, fun k => ?_, hat', hlab', by omega, by omega, hf.trans hf'⟩
    rw [← Nat.add_assoc, hrun, hrun']

/-! ## The finish and the fix-up (R146 to R159) -/

/-- The finish: the sixteenth shift, the final trial, the collect, the two inspections: five control states (R141, R142, R146 to
R149). That the bit leaving the top is 0 is `LoopAt.signed_shifted`. -/
theorem run_signedFinish (h : s.control_state = signedShiftLabel b) (hc : s.counter = 1#32) (ht : s.alu.msb = false)
    (k : Nat) :
    runToTerminal (k + 5) s = runToTerminal k { s with
      addr_lo := shiftedAlu s, addr_hi := collectedRemainder s, alu := collectedAlu s b, alu_ext := collectedQuotient s b,
      counter := 0#32, flags := testFlags (subFlags (shiftedAlu s) s.alu_buf) s.dividend_hi,
      control_state := if s.divisor.msb then Label.dvsxn1 else Label.dvsxp1, cycles := s.cycles + 10 } := by
  rw [run_signedShift h, if_pos hc, hc, run_label .dvsf2 rfl rfl (execDvsf2_eq _),
    run_label .dvsf3 rfl rfl (execDvsf3_eq _), run_label .dvsf4 rfl rfl (execDvsf4_eq _),
    run_label .dvsf5 rfl rfl (execDvsf5_eq _)]
  have hb : lastBit s = decide (s.alu_buf.toNat ≤ (shiftedAlu s).toNat) := by rw [lastBit, ht, Bool.false_or]
  have hc' : (subFlags (shiftedAlu s) s.alu_buf).c = !lastBit s := by
    simp only [hb, subFlags, ← decide_not, Nat.not_le]
  dsimp only
  rw [hc', Bool.not_not, msb_eq_decide_le, collectedRemainder, collectedQuotient]
  cases lastBit s <;> rfl

/-- The last state of a quadrant: the overflow exit or the writeback, one control state (R140, R159). -/
theorem run_signedLast {c : Bool} (h : s.control_state = if c then Label.dvsovx else Label.dvswb) (k : Nat) :
    runToTerminal (k + 1) s = .next { s with
      dividend_hi := if c then s.dividend_hi else s.addr_hi, dividend_lo := if c then s.dividend_lo else s.addr_lo,
      control_state := if c then Label.tOvf else Label.tNext, cycles := s.cycles + 2 } := by
  cases c
  · rw [run_label .dvswb (by rw [h]; rfl) rfl (execDvswb_eq s)]; exact runToTerminal_done rfl k
  · rw [run_label .dvsovx (by rw [h]; rfl) rfl (execDvsovx_eq s)]; exact runToTerminal_done rfl k

/-- Quadrant (+,+): three control states; overflow when the quotient has bit 15 (R150, R152). -/
theorem run_signedPlusPlus (h : s.control_state = Label.dvsxp1) (hn : s.flags.n = false) (k : Nat) :
    runToTerminal (k + 3) s = .next { s with
      addr_lo := s.alu_ext, flags := testFlags s.flags s.alu_ext,
      dividend_hi := if s.alu_ext.msb then s.dividend_hi else s.addr_hi,
      dividend_lo := if s.alu_ext.msb then s.dividend_lo else s.alu_ext,
      control_state := if s.alu_ext.msb then Label.tOvf else Label.tNext, cycles := s.cycles + 6 } := by
  rw [run_label .dvsxp1 (by rw [h]; rfl) rfl (execDvsxp1_eq s), hn, run_label .dvspp2 rfl rfl (execDvspp2_eq _),
    run_signedLast (c := s.alu_ext.msb) (by rw [msb_eq_decide_le]; rfl)]

/-- Quadrant (+,-): four control states; overflow when the negated quotient is positive (R150, R153, R154). -/
theorem run_signedPlusMinus (h : s.control_state = Label.dvsxp1) (hn : s.flags.n = true) (k : Nat) :
    runToTerminal (k + 4) s = .next { s with
      addr_lo := 0#16 - s.alu_ext, addr_hi := 0#16 - s.addr_hi, flags := subFlags 0#16 s.addr_hi,
      dividend_hi := if (subFlags 0#16 s.alu_ext).positive then s.dividend_hi else 0#16 - s.addr_hi,
      dividend_lo := if (subFlags 0#16 s.alu_ext).positive then s.dividend_lo else 0#16 - s.alu_ext,
      control_state := if (subFlags 0#16 s.alu_ext).positive then Label.tOvf else Label.tNext,
      cycles := s.cycles + 8 } := by
  rw [run_label .dvsxp1 (by rw [h]; rfl) rfl (execDvsxp1_eq s), hn, run_label .dvspm2 rfl rfl (execDvspm2_eq _),
    run_label .dvspm3 rfl rfl (execDvspm3_eq _), run_signedLast (c := (subFlags 0#16 s.alu_ext).positive) rfl]

/-- Quadrant (-,-): four control states; overflow when the quotient has bit 15 (R151, R155, R156). -/
theorem run_signedMinusMinus (h : s.control_state = Label.dvsxn1) (hn : s.flags.n = true) (k : Nat) :
    runToTerminal (k + 4) s = .next { s with
      addr_lo := s.alu_ext, addr_hi := 0#16 - s.addr_hi, flags := subFlags 0#16 s.addr_hi,
      dividend_hi := if s.alu_ext.msb then s.dividend_hi else 0#16 - s.addr_hi,
      dividend_lo := if s.alu_ext.msb then s.dividend_lo else s.alu_ext,
      control_state := if s.alu_ext.msb then Label.tOvf else Label.tNext, cycles := s.cycles + 8 } := by
  rw [run_label .dvsxn1 (by rw [h]; rfl) rfl (execDvsxn1_eq s), hn, run_label .dvsmm2 rfl rfl (execDvsmm2_eq _),
    run_label .dvsmm3 rfl rfl (execDvsmm3_eq _), run_signedLast (c := s.alu_ext.msb) (by rw [msb_eq_decide_le]; rfl)]

/-- Quadrant (-,+): four control states; overflow when the negated quotient is positive (R151, R157, R158). -/
theorem run_signedMinusPlus (h : s.control_state = Label.dvsxn1) (hn : s.flags.n = false) (k : Nat) :
    runToTerminal (k + 4) s = .next { s with
      addr_lo := 0#16 - s.alu_ext, flags := subFlags 0#16 s.alu_ext,
      dividend_hi := if (subFlags 0#16 s.alu_ext).positive then s.dividend_hi else s.addr_hi,
      dividend_lo := if (subFlags 0#16 s.alu_ext).positive then s.dividend_lo else 0#16 - s.alu_ext,
      control_state := if (subFlags 0#16 s.alu_ext).positive then Label.tOvf else Label.tNext,
      cycles := s.cycles + 8 } := by
  rw [run_label .dvsxn1 (by rw [h]; rfl) rfl (execDvsxn1_eq s), hn, run_label .dvsmp2 rfl rfl (execDvsmp2_eq _),
    run_label .dvsmp3 rfl rfl (execDvsmp3_eq _), run_signedLast (c := (subFlags 0#16 s.alu_ext).positive) rfl]

/-- The negated quotient is positive exactly when the quotient is above 0x8000 (R154, R158, R162). -/
theorem negated_positive_iff (v : Word) : (subFlags 0#16 v).positive = decide (0x8000 < v.toNat) := by
  have h := v.isLt
  have hz : (0#16 : Word).toNat = 0 := rfl
  rw [Bool.eq_iff_iff]
  simp only [Flags.positive, subFlags, negate_toNat, hz, Bool.and_eq_true, Bool.not_eq_true', decide_eq_false_iff_not,
    decide_eq_true_eq]
  omega

end Sys2Proof.Machine
end

