-- ==== Sys2Proof/Laws/Unsigned.lean ====
section
/-! SUPPORT. One step of the unsigned division, as a run of control states: forced, taken, not taken, and the finish
(`42_divide_unsigned.md` R100, R106 to R116, R119). `b` is the quotient bit waiting in the choice of the shift label. -/

namespace Sys2Proof.Machine

/-- The shift state that injects `b`. -/
def unsignedShiftLabel (b : Bool) : LabelCode := if b then Label.dvush1 else Label.dvush0

variable {s : State} {b : Bool}

/-- A shift state of the unsigned engine, whichever bit it injects (R106, R107). -/
theorem run_unsignedShift (h : s.control_state = unsignedShiftLabel b) (k : Nat) :
    runToTerminal (k + 1) s = runToTerminal k { s with
      alu := shiftedAlu s, alu_ext := shiftedAluExt s b, counter := s.counter - 1#32,
      control_state := if s.counter = 1#32 then (if s.alu.msb then Label.dvuf2f else Label.dvuf2t)
        else (if s.alu.msb then Label.dvusbf else Label.dvusbt),
      cycles := s.cycles + 2 } := by
  cases b
  · exact run_label .dvush0 (by rw [h]; rfl) rfl (execDvush0_eq s) k
  · exact run_label .dvush1 (by rw [h]; rfl) rfl (execDvush1_eq s) k

/-- A forced step: two control states. -/
theorem run_unsignedForced (h : s.control_state = unsignedShiftLabel b) (hc : s.counter ≠ 1#32) (ht : s.alu.msb = true)
    (k : Nat) :
    runToTerminal (k + 2) s = runToTerminal k { s with
      alu := shiftedAlu s - s.alu_buf, alu_ext := shiftedAluExt s b, counter := s.counter - 1#32,
      flags := subFlags (shiftedAlu s) s.alu_buf, control_state := unsignedShiftLabel true, cycles := s.cycles + 4 } := by
  rw [run_unsignedShift h, if_neg hc, if_pos ht]
  exact run_label .dvusbf rfl rfl (execDvusbf_eq _) k

/-- The trial subtract of a step whose shifted-out bit is 0. -/
theorem run_unsignedTrial (h : s.control_state = unsignedShiftLabel b) (hc : s.counter ≠ 1#32) (ht : s.alu.msb = false)
    (k : Nat) :
    runToTerminal (k + 3) s = runToTerminal k { s with
      addr_lo := shiftedAlu s, alu := shiftedAlu s - s.alu_buf, alu_ext := shiftedAluExt s b, counter := s.counter - 1#32,
      flags := subFlags (shiftedAlu s) s.alu_buf,
      control_state := if (shiftedAlu s).toNat < s.alu_buf.toNat then Label.dvurst else Label.dvush1,
      cycles := s.cycles + 6 } := by
  rw [run_unsignedShift h, if_neg hc, ht, run_label .dvusbt rfl rfl (execDvusbt_eq _),
    run_label .dvuchk rfl rfl (execDvuchk_eq _)]
  simp [subFlags]

/-- A taken step: three control states. -/
theorem run_unsignedTaken (h : s.control_state = unsignedShiftLabel b) (hc : s.counter ≠ 1#32) (ht : s.alu.msb = false)
    (hd : s.alu_buf.toNat ≤ (shiftedAlu s).toNat) (k : Nat) :
    runToTerminal (k + 3) s = runToTerminal k { s with
      addr_lo := shiftedAlu s, alu := shiftedAlu s - s.alu_buf, alu_ext := shiftedAluExt s b, counter := s.counter - 1#32,
      flags := subFlags (shiftedAlu s) s.alu_buf, control_state := unsignedShiftLabel true, cycles := s.cycles + 6 } := by
  rw [run_unsignedTrial h hc ht, if_neg (by omega)]
  rfl

/-- A step that is not taken: four control states. -/
theorem run_unsignedNotTaken (h : s.control_state = unsignedShiftLabel b) (hc : s.counter ≠ 1#32) (ht : s.alu.msb = false)
    (hd : (shiftedAlu s).toNat < s.alu_buf.toNat) (k : Nat) :
    runToTerminal (k + 4) s = runToTerminal k { s with
      addr_lo := shiftedAlu s, alu := shiftedAlu s, alu_ext := shiftedAluExt s b, counter := s.counter - 1#32,
      flags := subFlags (shiftedAlu s) s.alu_buf, control_state := unsignedShiftLabel false, cycles := s.cycles + 8 } := by
  rw [run_unsignedTrial h hc ht, if_pos hd]
  exact run_label .dvurst rfl rfl (execDvurst_eq _) k

/-- The finish: the sixteenth shift, the final subtract, the collect and the writeback, four control states whichever way the
step goes (R106, R107, R112 to R116). -/
theorem run_unsignedFinish (h : s.control_state = unsignedShiftLabel b) (hc : s.counter = 1#32) (k : Nat) :
    runToTerminal (k + 4) s = .next { s with
      addr_lo := if s.alu.msb then s.addr_lo else shiftedAlu s, addr_hi := collectedRemainder s, alu := collectedAlu s b,
      alu_ext := collectedQuotient s b, counter := 0#32, flags := subFlags (shiftedAlu s) s.alu_buf,
      dividend_hi := collectedRemainder s, dividend_lo := collectedQuotient s b, control_state := Label.tNext,
      cycles := s.cycles + 8 } := by
  rw [run_unsignedShift h, if_pos hc, hc]
  cases ht : s.alu.msb
  · have hb : lastBit s = decide (s.alu_buf.toNat ≤ (shiftedAlu s).toNat) := by rw [lastBit, ht, Bool.false_or]
    have hc' : (subFlags (shiftedAlu s) s.alu_buf).c = !lastBit s := by
      simp only [hb, subFlags, ← decide_not, Nat.not_le]
    rw [run_label .dvuf2t rfl rfl (execDvuf2t_eq _), run_label .dvuf3t rfl rfl (execDvuf3t_eq _),
      run_label .dvuf4 rfl rfl (execDvuf4_eq _), runToTerminal_done rfl]
    dsimp only
    rw [hc', Bool.not_not, collectedRemainder, collectedQuotient]
    cases lastBit s <;> rfl
  · have hb : lastBit s = true := by rw [lastBit, ht, Bool.true_or]
    rw [if_pos rfl, run_label .dvuf2f rfl rfl (execDvuf2f_eq _), run_label .dvuf3f rfl rfl (execDvuf3f_eq _),
      run_label .dvuf4 rfl rfl (execDvuf4_eq _), runToTerminal_done rfl, collectedRemainder, collectedQuotient, hb]
    rfl

/-- One loop step, of `j` control states, from the invariant to the invariant. -/
theorem unsigned_loop_step {n d m Q r lo : Nat} (h : LoopAt n d (m + 2) Q r lo b s)
    (hl : s.control_state = unsignedShiftLabel b) :
    ∃ (j : Nat) (t : State) (q : Bool) (r' lo' : Nat), j ≤ 4 ∧ (∀ k, runToTerminal (k + j) s = runToTerminal k t) ∧
      LoopAt n d (m + 1) (2 * Q + q.toNat) r' lo' q t ∧ t.control_state = unsignedShiftLabel q ∧
      t.cycles = s.cycles + 2 * j ∧ costUSteps n d (m + 1) r = 2 * j + costUSteps n d m r' ∧ LoopFrame s t ∧
      ∀ entry, StashedByLastTrial n d (m + 2) entry s.addr_lo → StashedByLastTrial n d (m + 1) entry t.addr_lo := by
  have hc := h.counter_ne_one
  obtain ⟨f1, f2, -⟩ := h.shifted
  have hbuf := h.buf
  have hr := h.rem_lt
  have hle := bitOf_le_one n (m + 1)
  have hd := s.alu_buf.isLt
  have hm16 := h.steps
  have he := h.shiftedAt_eq
  rw [costUSteps]
  by_cases ht : 65536 ≤ 2 * r + bitOf n (m + 1)
  · refine ⟨2, _, true, 2 * r + bitOf n (m + 1) - d, _, by omega, run_unsignedForced hl hc (f1.mpr ht),
      h.next (by simp; omega) (by omega) rfl rfl ?_ rfl, rfl, rfl, if_pos ht, ⟨rfl, rfl, rfl, rfl, rfl, rfl, rfl⟩,
      fun _ k => k.forced (by omega)⟩
    simp only [BitVec.toNat_sub, f2]
    omega
  have hm : s.alu.msb = false := by rw [← Bool.not_eq_true, f1]; exact ht
  have hs : (shiftedAlu s).toNat = 2 * r + bitOf n (m + 1) := by omega
  rw [if_neg ht]
  by_cases hq : d ≤ 2 * r + bitOf n (m + 1)
  · refine ⟨3, _, true, 2 * r + bitOf n (m + 1) - d, _, by omega, run_unsignedTaken hl hc hm (by omega),
      h.next (by simp; omega) (by omega) rfl rfl ?_ rfl, rfl, rfl, if_pos hq, ⟨rfl, rfl, rfl, rfl, rfl, rfl, rfl⟩,
      fun _ _ => .trial (by omega) (by omega) (hs.trans he.symm)⟩
    simp only [BitVec.toNat_sub, hs]
    omega
  · exact ⟨4, _, false, 2 * r + bitOf n (m + 1), _, by omega, run_unsignedNotTaken hl hc hm (by omega),
      h.next (by simp) (by omega) rfl rfl hs rfl, rfl, rfl, if_neg hq, ⟨rfl, rfl, rfl, rfl, rfl, rfl, rfl⟩,
      fun _ _ => .trial (by omega) (by omega) (hs.trans he.symm)⟩

/-- The loop: all steps but the sixteenth. -/
theorem unsigned_loop {n d : Nat} (m : Nat) {Q r lo : Nat} {b : Bool} {s : State} (h : LoopAt n d (m + 1) Q r lo b s)
    (hl : s.control_state = unsignedShiftLabel b) :
    ∃ (j : Nat) (t : State) (b' : Bool) (Q' r' lo' : Nat), j ≤ 4 * m ∧
      (∀ k, runToTerminal (k + j) s = runToTerminal k t) ∧ LoopAt n d 1 Q' r' lo' b' t ∧
      t.control_state = unsignedShiftLabel b' ∧ t.cycles = s.cycles + 2 * j ∧ 2 * j = costUSteps n d m r ∧
      LoopFrame s t ∧
      ∀ entry, StashedByLastTrial n d (m + 1) entry s.addr_lo → StashedByLastTrial n d 1 entry t.addr_lo := by
  induction m generalizing Q r lo b s with
  | zero => exact ⟨0, s, b, Q, r, lo, le_refl _, fun _ => rfl, h, hl, rfl, rfl, .refl s, fun _ k => k⟩
  | succ m ih =>
    obtain ⟨j, t, q, r₁, lo₁, hj, hrun, hat, hlab, hcyc, hcost, hf, hst⟩ := unsigned_loop_step h hl
    obtain ⟨i, u, q', Q', r', lo', hi, hrun', hat', hlab', hcyc', hcost', hf', hst'⟩ := ih hat hlab
    refine ⟨i + j, u, q', Q', r', lo', by omega, fun k => ?_, hat', hlab', by omega, by omega, hf.trans hf',
      fun e k => hst' e (hst e k)⟩
    rw [← Nat.add_assoc, hrun, hrun']

end Sys2Proof.Machine
end

