-- ==== Sys2Proof/Tests/Slice0.lean ====
section
/-! SUPPORT. Tests: words written out from `30_encoding.md`, ill-formed terms refused, one step of every instruction with values
of the spec's worked examples (the state rules of `42_divide_unsigned.md` and `43_divide_signed.md`, the tables A, S, X, L and the
traces P1 to P5 of `95_test_vectors.md`), and a witness for the hypotheses of every statement. -/

namespace Sys2Proof.Tests

open Sys2Proof.Machine

/-- The outcome is a next state of which `p` holds. -/
def yields (o : Out) (p : State → Bool) : Bool :=
  match o with
  | .next t => p t
  | _ => false

/-- The outcome is this refusal. -/
def refusesWith (o : Out) (r : Refusal) : Bool :=
  match o with
  | .refused q => q == r
  | _ => false

/-- The outcome is this fault. -/
def faultsWith (o : Out) (r : Fault) : Bool :=
  match o with
  | .fault q => q == r
  | _ => false

theorem next_of_yields {o : Out} {p : State → Bool} (h : yields o p = true) : ∃ t, o = .next t ∧ p t = true := by
  cases o with
  | next t => exact ⟨t, rfl, h⟩
  | fault _ => exact absurd h (by simp [yields])
  | refused _ => exact absurd h (by simp [yields])

/-- A state at a label, the rest as after reset. -/
def holding (c : LabelCode) : State := { State.reset with control_state := c }

/-- An idle state with a dividend and a divisor. -/
def operands (hi lo d : Word) : State := { State.reset with dividend_hi := hi, dividend_lo := lo, divisor := d }

/-- A state with a packed flags value. -/
def flagged (f : BitVec 5) : State := { State.reset with flags := Flags.unpack f }

/-! ## Decoding (R51, R52, R54, R56, R58), `grp` and `idx` of a label written as two groups of bits -/

theorem test_decode_cmd : decode (.cmd 0b0#1) = .instr .divideUnsigned ∧ decode (.cmd 0b1#1) = .instr .divideSigned := by decide

theorem test_decode_alu :
    decode (.alu 0b00#2 (.ofOperands (.reg .divisor) .ones none)) = .instr (.and (.reg .divisor) .ones none) ∧
    decode (.alu 0b01#2 (.ofOperands (.reg .alu) (.reg .alu_buf) (some .alu))) =
      .instr (.sub (.reg .alu) (.reg .alu_buf) (some .alu)) ∧
    decode (.alu 0b10#2 (.ofOperands .zeros (.reg .alu) (some .alu))) = .instr (.subExtended .zeros (.reg .alu) (some .alu)) ∧
    decode (.alu 0b11#2 (.ofInject true)) = .instr (.shiftLeftPair true) := by decide

theorem test_decode_terminal :
    decodeLabel 0b000000#6 = some .tNext ∧ decodeLabel 0b000001#6 = some .tTrap ∧
    decodeLabel 0b000010#6 = some .tOvf ∧ decodeLabel 0b000011#6 = some .tAddr := by decide

theorem test_decode_unsigned_low :
    decodeLabel 0b010000#6 = some .dvu1 ∧ decodeLabel 0b010001#6 = some .dvu2 ∧ decodeLabel 0b010010#6 = some .dvu3 ∧
    decodeLabel 0b010011#6 = some .dvuo1 ∧ decodeLabel 0b010100#6 = some .dvuo2 ∧ decodeLabel 0b010101#6 = some .dvush0 ∧
    decodeLabel 0b010110#6 = some .dvush1 ∧ decodeLabel 0b010111#6 = some .dvusbf := by decide

theorem test_decode_unsigned_high :
    decodeLabel 0b011000#6 = some .dvusbt ∧ decodeLabel 0b011001#6 = some .dvuchk ∧ decodeLabel 0b011010#6 = some .dvurst ∧
    decodeLabel 0b011011#6 = some .dvuf2f ∧ decodeLabel 0b011100#6 = some .dvuf2t ∧ decodeLabel 0b011101#6 = some .dvuf3f ∧
    decodeLabel 0b011110#6 = some .dvuf3t ∧ decodeLabel 0b011111#6 = some .dvuf4 := by decide

theorem test_decode_signed_low :
    decodeLabel 0b100000#6 = some .dvs1 ∧ decodeLabel 0b100001#6 = some .dvs2 ∧ decodeLabel 0b100010#6 = some .dvsp0 ∧
    decodeLabel 0b100011#6 = some .dvsn1 ∧ decodeLabel 0b100100#6 = some .dvsn2 ∧ decodeLabel 0b100101#6 = some .dvsa ∧
    decodeLabel 0b100110#6 = some .dvsc ∧ decodeLabel 0b100111#6 = some .dvsk := by decide

theorem test_decode_signed_loop :
    decodeLabel 0b101000#6 = some .dvso1 ∧ decodeLabel 0b101001#6 = some .dvsovx ∧ decodeLabel 0b101010#6 = some .dvssh0 ∧
    decodeLabel 0b101011#6 = some .dvssh1 ∧ decodeLabel 0b101100#6 = some .dvssb ∧ decodeLabel 0b101101#6 = some .dvsck ∧
    decodeLabel 0b101110#6 = some .dvsrs ∧ decodeLabel 0b101111#6 = some .dvsf2 := by decide

theorem test_decode_signed_finish :
    decodeLabel 0b110000#6 = some .dvsf3 ∧ decodeLabel 0b110001#6 = some .dvsf4 ∧ decodeLabel 0b110010#6 = some .dvsf5 ∧
    decodeLabel 0b110011#6 = some .dvsxp1 ∧ decodeLabel 0b110100#6 = some .dvsxn1 ∧ decodeLabel 0b110101#6 = some .dvspp2 ∧
    decodeLabel 0b110110#6 = some .dvspm2 ∧ decodeLabel 0b110111#6 = some .dvspm3 := by decide

theorem test_decode_signed_fixup :
    decodeLabel 0b111000#6 = some .dvsmm2 ∧ decodeLabel 0b111001#6 = some .dvsmm3 ∧ decodeLabel 0b111010#6 = some .dvsmp2 ∧
    decodeLabel 0b111011#6 = some .dvsmp3 ∧ decodeLabel 0b111100#6 = some .dvswb := by decide

theorem test_decode_outcomes :
    decode (.out 0b00#2) = .instr .normal ∧ decode (.out 0b01#2) = .instr .divisionByZero ∧
    decode (.out 0b10#2) = .instr .overflow ∧ decode (.out 0b11#2) = .rejected .reservedOutcome := by decide

/-- The ends of the two gaps of `CS`. -/
theorem test_decode_gaps :
    decode (.cs 0b000100#6) = .rejected .undefinedLabel ∧ decode (.cs 0b001111#6) = .rejected .undefinedLabel ∧
    decode (.cs 0b111101#6) = .rejected .undefinedLabel ∧ decode (.cs 0b111111#6) = .rejected .undefinedLabel := by decide

theorem test_decode_table_words :
    decodeTableWord 8 0x18 = some .dvusbt ∧ decodeTableWord 8 0x58 = none ∧ decodeTableWord 8 0x04 = none ∧
    decodeTableWord 1 0 = some .divideUnsigned ∧ decodeTableWord 1 1 = some .divideSigned := by decide

theorem test_pack_flags : Flags.pack ⟨true, true, false, false, true⟩ = 0x19#5 ∧ Flags.unpack 0x06#5 = ⟨false, false, true, true, false⟩ := by
  decide

/-! ## Ill-formed terms (R12, R13) -/

theorem test_wellFormed_divisor :
    (Instr.and .ones .zeros (some .divisor)).wellFormed = false ∧ (Instr.sub .ones .zeros (some .divisor)).wellFormed = false ∧
    (Instr.subExtended .ones .zeros (some .divisor)).wellFormed = false ∧
    refusesWith (exec (.sub .ones .zeros (some .divisor)) State.reset) .resultNotWritable = true := by decide

theorem test_wellFormed_dividend :
    (Instr.and .ones .zeros (some .dividend_hi)).wellFormed = false ∧
    (Instr.sub .ones .zeros (some .dividend_lo)).wellFormed = false ∧
    (Instr.subExtended .ones .zeros (some .dividend_hi)).wellFormed = false ∧
    refusesWith (exec (.and .ones .zeros (some .dividend_lo)) State.reset) .resultNotWritable = true := by decide

/-! ## The ALU primitives (tables A, S, X, L) -/

/-- Vector A2. -/
theorem test_and_zero_keeps_x :
    yields (exec (.and (.reg .divisor) .ones none) (flagged 0x1F#5)) (fun t => t.flags.pack == 0x14#5) = true := by decide

/-- Vector A7. -/
theorem test_and_mask :
    yields (exec (.and (.reg .alu) (.reg .alu_buf) (some .addr_hi)) { State.reset with alu := 0xF0F0#16, alu_buf := 0x0FF0#16 })
      (fun t => t.addr_hi == 0x00F0#16 && t.flags.pack == 0x00#5 && t.alu == 0xF0F0#16) = true := by decide

/-- Vector S8. -/
theorem test_sub_overflow :
    yields (exec (.sub (.reg .alu) (.reg .alu_buf) (some .alu)) { State.reset with alu := 0x8000#16, alu_buf := 0x0001#16 })
      (fun t => t.alu == 0x7FFF#16 && t.flags.pack == 0x02#5) = true := by decide

/-- Vector S6. -/
theorem test_sub_negate :
    yields (exec (.sub .zeros (.reg .alu_ext) (some .addr_lo)) { State.reset with alu_ext := 0x8000#16 })
      (fun t => t.addr_lo == 0x8000#16 && t.flags.pack == 0x1B#5) = true := by decide

/-- Vector X8. -/
theorem test_subExtended_subtracts_x :
    yields (exec (.subExtended (.reg .alu) (.reg .alu_buf) (some .alu))
        { flagged 0x10#5 with alu := 0x1234#16, alu_buf := 0x0034#16 })
      (fun t => t.alu == 0x11FF#16 && t.flags.pack == 0x10#5) = true := by decide

/-- Vector X4. -/
theorem test_subExtended_keeps_flags :
    yields (exec (.subExtended .zeros (.reg .alu) (some .alu)) (flagged 0x0F#5))
      (fun t => t.alu == 0x0000#16 && t.flags.pack == 0x0F#5) = true := by decide

/-- Vector L2. -/
theorem test_shiftLeftPair_drops_top :
    yields (exec (.shiftLeftPair true) { flagged 0x15#5 with alu := 0x8001#16, alu_ext := 0x8000#16 })
      (fun t => t.alu == 0x0003#16 && t.alu_ext == 0x0001#16 && t.flags.pack == 0x15#5) = true := by decide

/-- Vector L8. -/
theorem test_shiftLeftPair_zero :
    yields (exec (.shiftLeftPair false) { State.reset with alu := 0x7FFF#16, alu_ext := 0x7FFF#16 })
      (fun t => t.alu == 0xFFFE#16 && t.alu_ext == 0xFFFE#16) = true := by decide

/-! ## The operations, the terminal labels, the outcomes -/

theorem test_divideUnsigned :
    yields (exec .divideUnsigned (holding 0x02#6)) (fun t => t.control_state == 0x10#6 && t.cycles == 0) = true ∧
    refusesWith (exec .divideUnsigned (holding 0x15#6)) .startWhileRunning = true := by decide

theorem test_divideSigned :
    yields (exec .divideSigned (holding 0x01#6)) (fun t => t.control_state == 0x20#6 && t.cycles == 0) = true ∧
    refusesWith (exec .divideSigned (holding 0x3C#6)) .startWhileRunning = true := by decide

theorem test_terminal_labels_are_idle :
    yields (step (holding 0x00#6)) (· == holding 0x00#6) = true ∧ yields (step (holding 0x01#6)) (· == holding 0x01#6) = true ∧
    yields (step (holding 0x02#6)) (· == holding 0x02#6) = true ∧ yields (step (holding 0x03#6)) (· == holding 0x03#6) = true := by
  decide

theorem test_normal : yields (exec .normal (holding 0x1F#6)) (fun t => t.control_state == 0x00#6 && t.cycles == 0) = true := by decide

theorem test_divisionByZero :
    yields (exec .divisionByZero (holding 0x11#6)) (fun t => t.control_state == 0x01#6 && t.outcomePort == 1#2) = true := by decide

theorem test_overflow :
    yields (exec .overflow (holding 0x14#6)) (fun t => t.control_state == 0x02#6 && t.outcomePort == 2#2) = true := by decide

theorem test_undefined_label_is_stuck : faultsWith (step (holding 0x0A#6)) .undefinedLabel = true := by decide

theorem test_withFetchWord :
    yields (step (State.reset.withFetchWord 8 0x12)) (fun t => t.counter == 16#32 && t.cycles == 2) = true ∧
    yields (step (State.reset.withFetchWord 1 1)) (fun t => t.control_state == 0x20#6) = true := by decide

/-! ## The unsigned engine (the examples of R101 to R116) -/

theorem test_dvu1 :
    yields (exec .dvu1 { State.reset with divisor := 0x0005#16 })
      (fun t => t.alu_buf == 0x0005#16 && t.flags.pack == 0x00#5 && t.control_state == 0x11#6 && t.cycles == 2) = true := by decide

theorem test_dvu2 :
    yields (exec .dvu2 { operands 0x0000#16 0x001D#16 0x0005#16 with alu_buf := 0x0005#16 })
      (fun t => t.alu == 0x0000#16 && t.alu_ext == 0x001D#16 && t.flags.pack == 0x19#5 && t.control_state == 0x12#6) = true := by
  decide

/-- P3b: the Z of the state before decides; the loads and the compare happen all the same. -/
theorem test_dvu2_division_by_zero :
    yields (exec .dvu2 { flagged 0x04#5 with dividend_lo := 0x1234#16 })
      (fun t => t.control_state == 0x01#6 && t.alu_ext == 0x1234#16 && t.flags.pack == 0x04#5) = true := by decide

theorem test_dvu3 :
    yields (exec .dvu3 (flagged 0x19#5)) (fun t => t.counter == 16#32 && t.control_state == 0x15#6) = true ∧
    yields (exec .dvu3 (flagged 0x00#5)) (fun t => t.counter == 16#32 && t.control_state == 0x13#6) = true := by decide

theorem test_dvuo1 : yields (exec .dvuo1 State.reset) (fun t => t.control_state == 0x14#6 && t.cycles == 2) = true := by decide

theorem test_dvuo2 : yields (exec .dvuo2 State.reset) (fun t => t.control_state == 0x02#6 && t.cycles == 2) = true := by decide

theorem test_dvush0 :
    yields (exec .dvush0 { State.reset with alu_ext := 0x001D#16, counter := 16#32 })
      (fun t => t.alu_ext == 0x003A#16 && t.counter == 15#32 && t.control_state == 0x18#6) = true := by decide

/-- P5, row 4, and P1, row 63. -/
theorem test_dvush0_forced_and_last :
    yields (exec .dvush0 { State.reset with alu := 0xFFFE#16, alu_ext := 0xFFFF#16, counter := 16#32 })
      (fun t => t.alu == 0xFFFD#16 && t.alu_ext == 0xFFFE#16 && t.control_state == 0x17#6) = true ∧
    yields (exec .dvush0 { State.reset with alu := 0x0004#16, alu_ext := 0x8001#16, counter := 1#32 })
      (fun t => t.alu == 0x0009#16 && t.alu_ext == 0x0002#16 && t.control_state == 0x1C#6) = true := by decide

theorem test_dvush1 :
    yields (exec .dvush1 { State.reset with alu := 0x0002#16, alu_ext := 0x4000#16, counter := 2#32 })
      (fun t => t.alu == 0x0004#16 && t.alu_ext == 0x8001#16 && t.control_state == 0x18#6) = true ∧
    yields (exec .dvush1 { State.reset with alu := 0xFFFE#16, alu_ext := 0xBFFF#16, counter := 1#32 })
      (fun t => t.alu == 0xFFFD#16 && t.alu_ext == 0x7FFF#16 && t.control_state == 0x1B#6) = true := by decide

theorem test_dvusbf :
    yields (exec .dvusbf { State.reset with alu := 0xFFFD#16, alu_buf := 0xFFFF#16 })
      (fun t => t.alu == 0xFFFE#16 && t.flags.pack == 0x19#5 && t.control_state == 0x16#6) = true := by decide

theorem test_dvusbt :
    yields (exec .dvusbt { State.reset with alu := 0x0007#16, alu_buf := 0x0005#16, addr_lo := 0x0003#16 })
      (fun t => t.addr_lo == 0x0007#16 && t.alu == 0x0002#16 && t.flags.pack == 0x00#5 && t.control_state == 0x19#6) = true := by
  decide

theorem test_dvuchk :
    yields (exec .dvuchk (flagged 0x00#5)) (fun t => t.control_state == 0x16#6) = true ∧
    yields (exec .dvuchk (flagged 0x19#5)) (fun t => t.control_state == 0x1A#6 && t.flags.pack == 0x19#5) = true := by decide

theorem test_dvurst :
    yields (exec .dvurst { State.reset with alu := 0xFFFC#16, addr_lo := 0x0001#16 })
      (fun t => t.alu == 0x0001#16 && t.control_state == 0x15#6) = true := by decide

theorem test_dvuf2f :
    yields (exec .dvuf2f { State.reset with alu := 0xFFFD#16, alu_buf := 0xFFFF#16 })
      (fun t => t.alu == 0xFFFE#16 && t.control_state == 0x1D#6) = true := by decide

theorem test_dvuf2t :
    yields (exec .dvuf2t { State.reset with alu := 0x0009#16, alu_buf := 0x0005#16 })
      (fun t => t.addr_lo == 0x0009#16 && t.alu == 0x0004#16 && t.flags.c == false && t.control_state == 0x1E#6) = true := by decide

theorem test_dvuf3f :
    yields (exec .dvuf3f { State.reset with alu := 0xFFFE#16, alu_ext := 0x7FFF#16 })
      (fun t => t.addr_hi == 0xFFFE#16 && t.alu == 0xFFFC#16 && t.alu_ext == 0xFFFF#16 && t.control_state == 0x1F#6) = true := by
  decide

theorem test_dvuf3t :
    yields (exec .dvuf3t { State.reset with alu := 0x0004#16, alu_ext := 0x0002#16, addr_lo := 0x0009#16 })
      (fun t => t.addr_hi == 0x0004#16 && t.alu == 0x0008#16 && t.alu_ext == 0x0005#16) = true ∧
    yields (exec .dvuf3t { flagged 0x01#5 with alu := 0xFFFF#16, alu_ext := 0x4000#16, addr_lo := 0x0000#16 })
      (fun t => t.addr_hi == 0x0000#16 && t.alu == 0xFFFE#16 && t.alu_ext == 0x8000#16) = true := by decide

theorem test_dvuf4 :
    yields (exec .dvuf4 { operands 0x0000#16 0x001D#16 0x0005#16 with addr_hi := 0x0004#16, alu_ext := 0x0005#16 })
      (fun t => t.dividend_hi == 0x0004#16 && t.dividend_lo == 0x0005#16 && t.control_state == 0x00#6) = true := by decide

/-! ## The signed engine (the examples of R131 to R159) -/

theorem test_dvs1 :
    yields (exec .dvs1 { State.reset with divisor := 0xFFFB#16 })
      (fun t => t.alu_buf == 0xFFFB#16 && t.flags.n && !t.flags.z && t.control_state == 0x21#6) = true := by decide

theorem test_dvs2 :
    yields (exec .dvs2 { operands 0xFFFF#16 0xFFE3#16 0x0005#16 with alu_buf := 0x0005#16 })
      (fun t => t.alu_buf == 0x0005#16 && t.alu == 0xFFFF#16 && t.flags.pack == 0x19#5 && t.control_state == 0x23#6) = true := by
  decide

/-- The absolute value of the divisor -5, and P3e. -/
theorem test_dvs2_negative_divisor_and_zero :
    yields (exec .dvs2 { flagged 0x08#5 with alu_buf := 0xFFFB#16 })
      (fun t => t.alu_buf == 0x0005#16 && t.control_state == 0x22#6) = true ∧
    yields (exec .dvs2 { flagged 0x04#5 with dividend_hi := 0xFFFF#16 })
      (fun t => t.alu == 0xFFFF#16 && t.flags.pack == 0x04#5 && t.control_state == 0x01#6) = true := by decide

theorem test_dvsp0 : yields (exec .dvsp0 (flagged 0x19#5)) (fun t => t.flags.pack == 0x19#5 && t.control_state == 0x25#6) = true := by
  decide

theorem test_dvsn1 :
    yields (exec .dvsn1 { State.reset with alu_ext := 0xFFE3#16 })
      (fun t => t.alu_ext == 0x001D#16 && t.flags.pack == 0x11#5 && t.control_state == 0x24#6) = true := by decide

theorem test_dvsn2 :
    yields (exec .dvsn2 { flagged 0x11#5 with alu := 0xFFFF#16 })
      (fun t => t.alu == 0x0000#16 && t.flags.pack == 0x11#5 && t.control_state == 0x25#6) = true ∧
    yields (exec .dvsn2 { flagged 0x04#5 with alu := 0xFFFF#16 }) (fun t => t.alu == 0x0001#16) = true := by decide

theorem test_dvsa : yields (exec .dvsa (flagged 0x11#5)) (fun t => t.flags.pack == 0x14#5 && t.control_state == 0x26#6) = true := by
  decide

theorem test_dvsc :
    yields (exec .dvsc { flagged 0x14#5 with alu_buf := 0x0005#16 })
      (fun t => t.flags.pack == 0x19#5 && t.alu == 0x0000#16 && t.control_state == 0x27#6) = true := by decide

theorem test_dvsk :
    yields (exec .dvsk (flagged 0x19#5)) (fun t => t.counter == 16#32 && t.control_state == 0x2A#6) = true ∧
    yields (exec .dvsk (flagged 0x04#5)) (fun t => t.counter == 16#32 && t.control_state == 0x28#6) = true := by decide

theorem test_dvso1 : yields (exec .dvso1 State.reset) (fun t => t.control_state == 0x29#6 && t.cycles == 2) = true := by decide

theorem test_dvsovx : yields (exec .dvsovx State.reset) (fun t => t.control_state == 0x02#6 && t.cycles == 2) = true := by decide

theorem test_dvssh0 :
    yields (exec .dvssh0 { State.reset with alu_ext := 0x001D#16, counter := 16#32 })
      (fun t => t.alu_ext == 0x003A#16 && t.counter == 15#32 && t.control_state == 0x2C#6) = true ∧
    yields (exec .dvssh0 { State.reset with alu := 0x0004#16, alu_ext := 0x8001#16, counter := 1#32 })
      (fun t => t.alu == 0x0009#16 && t.alu_ext == 0x0002#16 && t.control_state == 0x2F#6) = true := by decide

theorem test_dvssh1 :
    yields (exec .dvssh1 { State.reset with alu := 0x0002#16, alu_ext := 0x4000#16, counter := 2#32 })
      (fun t => t.alu == 0x0004#16 && t.alu_ext == 0x8001#16 && t.counter == 1#32 && t.control_state == 0x2C#6) = true := by decide

theorem test_dvssb :
    yields (exec .dvssb { State.reset with alu := 0x0007#16, alu_buf := 0x0005#16 })
      (fun t => t.addr_lo == 0x0007#16 && t.alu == 0x0002#16 && t.flags.pack == 0x00#5 && t.control_state == 0x2D#6) = true := by
  decide

theorem test_dvsck :
    yields (exec .dvsck (flagged 0x00#5)) (fun t => t.control_state == 0x2B#6) = true ∧
    yields (exec .dvsck (flagged 0x19#5)) (fun t => t.control_state == 0x2E#6) = true := by decide

theorem test_dvsrs :
    yields (exec .dvsrs { State.reset with alu := 0xFFFB#16, addr_lo := 0x0003#16 })
      (fun t => t.alu == 0x0003#16 && t.control_state == 0x2A#6) = true := by decide

theorem test_dvsf2 :
    yields (exec .dvsf2 { State.reset with alu := 0x0009#16, alu_buf := 0x0005#16 })
      (fun t => t.addr_lo == 0x0009#16 && t.alu == 0x0004#16 && t.flags.c == false && t.control_state == 0x30#6) = true := by decide

theorem test_dvsf3 :
    yields (exec .dvsf3 { State.reset with alu := 0x0004#16, alu_ext := 0x0002#16, addr_lo := 0x0009#16 })
      (fun t => t.addr_hi == 0x0004#16 && t.alu_ext == 0x0005#16 && t.control_state == 0x31#6) = true ∧
    yields (exec .dvsf3 { flagged 0x19#5 with alu := 0xFFFF#16, alu_ext := 0x4000#16, addr_lo := 0x0000#16 })
      (fun t => t.addr_hi == 0x0000#16 && t.alu == 0xFFFE#16 && t.alu_ext == 0x8000#16) = true := by decide

/-- P4, row 69. -/
theorem test_dvsf4 :
    yields (exec .dvsf4 { flagged 0x19#5 with divisor := 0x0001#16 })
      (fun t => t.flags.pack == 0x10#5 && t.control_state == 0x32#6) = true := by decide

/-- P2, row 71, and a negative divisor. -/
theorem test_dvsf5 :
    yields (exec .dvsf5 { flagged 0x00#5 with dividend_hi := 0xFFFF#16 })
      (fun t => t.flags.pack == 0x08#5 && t.control_state == 0x33#6) = true ∧
    yields (exec .dvsf5 (flagged 0x08#5)) (fun t => t.flags.pack == 0x04#5 && t.control_state == 0x34#6) = true := by decide

theorem test_dvsxp1 :
    yields (exec .dvsxp1 { flagged 0x08#5 with alu_ext := 0x0005#16 })
      (fun t => t.flags.pack == 0x00#5 && t.control_state == 0x36#6) = true ∧
    yields (exec .dvsxp1 { flagged 0x14#5 with alu_ext := 0x8000#16 })
      (fun t => t.flags.pack == 0x18#5 && t.control_state == 0x35#6) = true := by decide

theorem test_dvsxn1 :
    yields (exec .dvsxn1 { flagged 0x00#5 with alu_ext := 0x0005#16 })
      (fun t => t.flags.pack == 0x00#5 && t.control_state == 0x3A#6) = true ∧
    yields (exec .dvsxn1 { flagged 0x08#5 with alu_ext := 0x0005#16 }) (fun t => t.control_state == 0x38#6) = true := by decide

theorem test_dvspp2 :
    yields (exec .dvspp2 { State.reset with alu_ext := 0x0005#16 })
      (fun t => t.addr_lo == 0x0005#16 && t.control_state == 0x3C#6) = true ∧
    yields (exec .dvspp2 { flagged 0x18#5 with alu_ext := 0x8000#16 })
      (fun t => t.addr_lo == 0x8000#16 && t.control_state == 0x29#6) = true := by decide

theorem test_dvspm2 :
    yields (exec .dvspm2 { State.reset with alu_ext := 0x0005#16 })
      (fun t => t.addr_lo == 0xFFFB#16 && t.flags.pack == 0x19#5 && t.control_state == 0x37#6) = true := by decide

theorem test_dvspm3 :
    yields (exec .dvspm3 { flagged 0x19#5 with addr_hi := 0x0004#16 })
      (fun t => t.addr_hi == 0xFFFC#16 && t.flags.pack == 0x19#5 && t.control_state == 0x3C#6) = true ∧
    yields (exec .dvspm3 (flagged 0x11#5)) (fun t => t.control_state == 0x29#6) = true := by decide

theorem test_dvsmm2 :
    yields (exec .dvsmm2 { flagged 0x08#5 with alu_ext := 0x0005#16 })
      (fun t => t.addr_lo == 0x0005#16 && t.flags.pack == 0x08#5 && t.control_state == 0x39#6) = true := by decide

theorem test_dvsmm3 :
    yields (exec .dvsmm3 { flagged 0x00#5 with addr_hi := 0x0004#16 })
      (fun t => t.addr_hi == 0xFFFC#16 && t.control_state == 0x3C#6) = true ∧
    yields (exec .dvsmm3 (flagged 0x08#5)) (fun t => t.control_state == 0x29#6) = true := by decide

theorem test_dvsmp2 :
    yields (exec .dvsmp2 { State.reset with alu_ext := 0x0005#16 })
      (fun t => t.addr_lo == 0xFFFB#16 && t.flags.n && !t.flags.z && t.control_state == 0x3B#6) = true := by decide

/-- A negative, a zero and a positive negated quotient. -/
theorem test_dvsmp3 :
    yields (exec .dvsmp3 (flagged 0x08#5)) (fun t => t.control_state == 0x3C#6) = true ∧
    yields (exec .dvsmp3 (flagged 0x04#5)) (fun t => t.control_state == 0x3C#6) = true ∧
    yields (exec .dvsmp3 (flagged 0x00#5)) (fun t => t.control_state == 0x29#6) = true := by decide

theorem test_dvswb :
    yields (exec .dvswb { operands 0xFFFF#16 0xFFE3#16 0x0005#16 with addr_hi := 0xFFFC#16, addr_lo := 0xFFFB#16 })
      (fun t => t.dividend_hi == 0xFFFC#16 && t.dividend_lo == 0xFFFB#16 && t.control_state == 0x00#6) = true := by decide

/-! ## Witnesses: states and operands that meet the hypotheses of the statements -/

theorem witness_DecodeOfEncodeIsTheInstruction :
    (Instr.and (.reg .alu) .ones (some .addr_hi)).wellFormed = true ∧ (Instr.sub .zeros (.reg .divisor) none).wellFormed = true ∧
      Instr.dvswb.wellFormed = true := by decide

theorem witness_EveryLabelCodeSelectsAtMostOneRow :
    csRow 0x10#6 .dvu1 ∈ csRows ∧ (csRow 0x10#6 .dvu1).selects 0x10#6 = true := by decide

theorem witness_StepExecutesTheLabelHeld :
    ((holding 0x10#6).done = false ∧ decodeLabel (holding 0x10#6).control_state = some .dvu1) ∧
      (State.reset.inputs = [] ∧ decodeLabel State.reset.control_state = some .tNext) := by decide

/-- Both ends of both ranges. -/
theorem witness_UndefinedLabelHasNoStep :
    (4 ≤ (holding 0x04#6).control_state.toNat ∧ (holding 0x04#6).control_state.toNat ≤ 15) ∧
      (4 ≤ (holding 0x0F#6).control_state.toNat ∧ (holding 0x0F#6).control_state.toNat ≤ 15) ∧
      61 ≤ (holding 0x3D#6).control_state.toNat ∧ 61 ≤ (holding 0x3F#6).control_state.toNat := by decide

/-- An idle state, an even and an odd number of cycles, a defined and an undefined label. -/
theorem witness_IdleStepMakesTheCallersMove :
    State.reset.done = true ∧ 0 % 2 = 0 ∧ 1 % 2 = 1 ∧ (decodeLabel 0x3C#6).isSome = true ∧ decodeLabel 0x3D#6 = none := by decide

theorem witness_StartWritesTheEntryLabel : (holding 0x00#6).done = true ∧ (holding 0x03#6).done = true := by decide

theorem witness_StartWhileRunningIsRefused : (holding 0x10#6).done = false ∧ (holding 0x3C#6).done = false := by decide

theorem witness_TerminalLabelsHaveNoAction : (holding 0x03#6).done = true ∧ (holding 0x03#6).inputs = [] := by decide

theorem witness_OutcomeIsTheTerminalLabel : outcomeOf 0x00#6 ≠ none ∧ outcomeOf 0x02#6 ≠ none := by decide

/-- For `and`, `sub` and `sub_extended`: a result that is kept, and one that is discarded. -/
theorem witness_AluResultAllowed : resultAllowed (some .addr_lo) = true ∧ resultAllowed none = true := by decide

theorem witness_PrimitivesNeverWriteTheOperandRegisters :
    (Reg16.divisor = .divisor ∨ Reg16.divisor = .dividend_hi ∨ Reg16.divisor = .dividend_lo) ∧
      (Reg16.dividend_lo = .divisor ∨ Reg16.dividend_lo = .dividend_hi ∨ Reg16.dividend_lo = .dividend_lo) := by decide

/-- The four successors of an unsigned shift state, the counter at 1 and beside it. -/
theorem witness_UnsignedShiftStates :
    (0x1B#6 : LabelCode) = (if (1#32 : Long).toNat = 1 then (if (0x8000#16 : Word).getLsbD 15 = true then 0x1B#6 else 0x1C#6)
      else (if (0x8000#16 : Word).getLsbD 15 = true then 0x17#6 else 0x18#6)) ∧
    (0x18#6 : LabelCode) = (if (2#32 : Long).toNat = 1 then (if (0x7FFF#16 : Word).getLsbD 15 = true then 0x1B#6 else 0x1C#6)
      else (if (0x7FFF#16 : Word).getLsbD 15 = true then 0x17#6 else 0x18#6)) := by decide

/-- A terminal label and a running one. -/
theorem witness_StepKeepsLabelDefinedAndCyclesEven :
    (State.reset.Sound ∧ ∃ t, step State.reset = .next t) ∧ (holding 0x3C#6).Sound ∧ ∃ t, step (holding 0x3C#6) = .next t :=
  ⟨⟨⟨rfl, rfl⟩, _, rfl⟩, ⟨rfl, rfl⟩, _, rfl⟩

theorem witness_RunningStepNeverStops : (holding 0x10#6).Sound ∧ (holding 0x10#6).done = false := ⟨⟨rfl, rfl⟩, rfl⟩

/-- For the statements about every step of a running block: a first state, a writeback, an exit. -/
theorem witness_RunningStep :
    ((holding 0x10#6).done = false ∧ ∃ t, step (holding 0x10#6) = .next t) ∧
      ((holding 0x1F#6).done = false ∧ ∃ t, step (holding 0x1F#6) = .next t ∧ t.done = true) ∧
      ((holding 0x29#6).done = false ∧ ∃ t, step (holding 0x29#6) = .next t ∧ t.done = true) :=
  ⟨⟨rfl, _, rfl⟩, ⟨rfl, _, rfl, rfl⟩, rfl, _, rfl, rfl⟩

/-- The third way to end an invocation: the zero divisor. -/
theorem witness_OnlyNamedStatesEndAnInvocation :
    ({ flagged 0x04#5 with control_state := 0x21#6 } : State).done = false ∧
      ∃ t, step { flagged 0x04#5 with control_state := 0x21#6 } = .next t ∧ t.done = true := ⟨rfl, _, rfl, rfl⟩

theorem witness_TwoLimbNegateNegatesThePair : (holding 0x23#6).control_state = 0x23#6 := rfl

/-- For every statement about an invocation: the idle state, and each case of the unsigned result at its boundary. -/
theorem witness_UnsignedDivisionResult :
    (operands 0x0000#16 0x0000#16 0x0000#16).done = true ∧ (operands 0x0000#16 0x0000#16 0x0000#16).divisor.toNat = 0 ∧
      (operands 0x0001#16 0x0000#16 0x0001#16).divisor.toNat ≤ (operands 0x0001#16 0x0000#16 0x0001#16).dividend_hi.toNat ∧
      ¬ (operands 0x0000#16 0xFFFF#16 0x0001#16).divisor.toNat ≤ (operands 0x0000#16 0xFFFF#16 0x0001#16).dividend_hi.toNat := by
  decide

/-- Each case of the signed result at its boundary: 32768 / 1 does not fit, 32767 / 1 and -32768 / 1 do. -/
theorem witness_SignedDivisionResult :
    (operands 0x0000#16 0x8000#16 0x0000#16).divisor.toInt = 0 ∧
      ¬ FitsWord (trueQuotient (operands 0x0000#16 0x8000#16 0x0001#16).dividend.toInt 1) ∧
      FitsWord (trueQuotient (operands 0x0000#16 0x7FFF#16 0x0001#16).dividend.toInt 1) ∧
      FitsWord (trueQuotient (operands 0xFFFF#16 0x8000#16 0x0001#16).dividend.toInt 1) := by
  unfold FitsWord; decide

/-- Vector VS12, 32767 / 1: a signed invocation that ends with `Normal`. -/
theorem witness_SignedResultTruncatesTowardZero :
    (operands 0x0000#16 0x7FFF#16 0x0001#16).done = true ∧ (operands 0x0000#16 0x7FFF#16 0x0001#16).divisor.toInt ≠ 0 ∧
      ∃ t, invoke 1#1 (operands 0x0000#16 0x7FFF#16 0x0001#16) = .next t ∧ (outcomeOf t.control_state == some .normal) = true :=
  ⟨by decide, by decide, next_of_yields (by decide)⟩

/-- Vector VU13: an unsigned invocation that ends with `Normal`; the signed one is the witness above. -/
theorem witness_NormalCompletionCostsWithinBounds :
    (operands 0xFFFE#16 0xFFFF#16 0xFFFF#16).done = true ∧
      ∃ t, invoke 0#1 (operands 0xFFFE#16 0xFFFF#16 0xFFFF#16) = .next t ∧ (outcomeOf t.control_state == some .normal) = true :=
  ⟨by decide, next_of_yields (by decide)⟩

/-- P4: before the first shift, which injects 0, and before the second, which injects 1. -/
theorem witness_SignedShiftNeverDropsABit :
    ∃ e, exec .divideSigned (operands 0x0000#16 0x8000#16 0x0001#16) = .next e ∧
      (∃ t, runToTerminal 6 e = .next t ∧ t.control_state = 0x2A#6) ∧
      (∃ t, runToTerminal 9 e = .next t ∧ t.control_state = 0x2B#6) := ⟨_, rfl, ⟨_, rfl, rfl⟩, _, rfl, rfl⟩

theorem witness_MostNegativeDividendOverflowsEarly :
    (operands 0x8000#16 0x0000#16 0xFFFF#16).done = true ∧ (operands 0x8000#16 0x0000#16 0xFFFF#16).dividend = 0x80000000#32 ∧
      (operands 0x8000#16 0x0000#16 0xFFFF#16).divisor ≠ 0#16 := by decide

theorem witness_InvocationDependsOnItsOperandsAlone :
    (operands 0x0000#16 0x001D#16 0x0005#16).done = true ∧
      ({ operands 0x0000#16 0x001D#16 0x0005#16 with alu := 0xFFFF#16, control_state := 0x03#6 } : State).done = true ∧
      (operands 0x0000#16 0x001D#16 0x0005#16).dividend_lo =
        ({ operands 0x0000#16 0x001D#16 0x0005#16 with alu := 0xFFFF#16, control_state := 0x03#6 } : State).dividend_lo := by decide

/-- A last step that is not forced, and one that is. -/
theorem witness_UnsignedEndState :
    lastShifted (operands 0x0000#16 0x001D#16 0x0005#16).dividend.toNat 5 = 9 ∧ (9 : Nat) < 65536 ∧
      65536 ≤ lastShifted (operands 0xFFFE#16 0xFFFF#16 0xFFFF#16).dividend.toNat 0xFFFF := by decide

/-- All sixteen steps forced, 0xFFFEFFFF / 0xFFFF: the stash is the entry value (R120). -/
theorem witness_UnsignedEndState_allForced :
    ∀ i < 16, 65536 ≤ shiftedAt (operands 0xFFFE#16 0xFFFF#16 0xFFFF#16).dividend.toNat 0xFFFF i := by decide

/-- A forced sixteenth step after a trial, 0x70000 / 0xC000: the stash is the 0x8000 that the fifteenth step formed (R120). -/
theorem witness_UnsignedEndState_lastForced :
    65536 ≤ shiftedAt (operands 0x0007#16 0x0000#16 0xC000#16).dividend.toNat 0xC000 0 ∧
      shiftedAt (operands 0x0007#16 0x0000#16 0xC000#16).dividend.toNat 0xC000 1 = 0x8000 := by decide

/-- The early overflow at its boundary, 65536 / 1, and one below it. -/
theorem witness_SignedEndState :
    (operands 0x0001#16 0x0000#16 0x0001#16).divisor.toInt.natAbs ≤
        (operands 0x0001#16 0x0000#16 0x0001#16).dividend.toInt.natAbs / 65536 ∧
      ¬ (operands 0x0000#16 0xFFFF#16 0x0001#16).divisor.toInt.natAbs ≤
        (operands 0x0000#16 0xFFFF#16 0x0001#16).dividend.toInt.natAbs / 65536 := by decide

end Sys2Proof.Tests
end

/-! Proofs of the statements of `10_state.md` (O34, O56, O37, O38, O41, O7, O13, O19): what the execution of a control state can
do, said once; what a move of the caller can do; then that two invocations with the same operands agree. -/

namespace Sys2Proof.Machine

/-! ## What a control state can do -/

/-- What the execution of an engine instruction does to the fields that no engine computes with: `divisor` stays (R13), the
dividend stays but for a writeback (R12), the successor is a defined label (R58), and `pc_scratch`, `cycles` and the waiting moves
have no influence (R14, R26, R79), `cycles` growing by 2 (R208). -/
structure EngineStep (i : Instr) (s t : State) : Prop where
  divisor : t.divisor = s.divisor
  dividend : (t.dividend_hi = s.dividend_hi ∧ t.dividend_lo = s.dividend_lo) ∨
    ((i = .dvuf4 ∨ i = .dvswb) ∧ t.control_state = Label.tNext)
  label : (decodeLabel t.control_state).isSome = true
  beside : ∀ (v : Long) (n : Nat) (l : List CallerMove),
    exec i { s with pc_scratch := v, cycles := n, inputs := l } =
      .next { t with pc_scratch := v, cycles := n + 2, inputs := l }

/-- A microcycle closed with a defined label holds one after it. -/
theorem State.close_label (s : State) {next : LabelCode} (h : (decodeLabel next).isSome = true) :
    (decodeLabel (s.close next).control_state).isSome = true := h

/-- A choice between two defined labels is a defined label. -/
theorem ite_label (p : Prop) [Decidable p] {a b : LabelCode} (ha : (decodeLabel a).isSome = true)
    (hb : (decodeLabel b).isSome = true) : (decodeLabel (if p then a else b)).isSome = true := by
  split
  · exact ha
  · exact hb

/-- Every engine instruction answers a next state, which is an `EngineStep`: the states with one successor, those that choose
between two, the two shift states that choose between four, `DVS2` between three, and the writebacks. -/
theorem exec_engine (i : Instr) (he : isEngine i = true) (s : State) : ∃ t, exec i s = .next t ∧ EngineStep i s t := by
  cases i
  case dvu1 | dvuo1 | dvuo2 | dvusbf | dvusbt | dvurst | dvuf2f | dvuf2t | dvuf3f | dvs1 | dvsp0 | dvsn1 | dvsn2 | dvsa |
      dvsc | dvso1 | dvsovx | dvssb | dvsrs | dvsf2 | dvsf4 | dvspm2 | dvsmm2 | dvsmp2 =>
    exact ⟨_, rfl, rfl, .inl ⟨rfl, rfl⟩, State.close_label _ rfl, fun _ _ _ => rfl⟩
  case dvuf3t => exact ⟨_, execDvuf3t_eq s, rfl, .inl ⟨rfl, rfl⟩, s.close_label (next := Label.dvuf4) rfl,
    fun _ _ _ => execDvuf3t_eq _⟩
  case dvsf3 => exact ⟨_, execDvsf3_eq s, rfl, .inl ⟨rfl, rfl⟩, s.close_label (next := Label.dvsf4) rfl,
    fun _ _ _ => execDvsf3_eq _⟩
  case dvu2 | dvu3 | dvuchk | dvsk | dvssh0 | dvssh1 | dvsck | dvsf5 | dvsxp1 | dvsxn1 | dvspp2 | dvspm3 | dvsmm3 | dvsmp3 =>
    exact ⟨_, rfl, rfl, .inl ⟨rfl, rfl⟩, ite_label _ rfl rfl, fun _ _ _ => rfl⟩
  case dvs2 => exact ⟨_, execDvs2_eq s, rfl, .inl ⟨rfl, rfl⟩, ite_label _ rfl (ite_label _ rfl rfl),
    fun _ _ _ => execDvs2_eq _⟩
  case dvush0 | dvush1 =>
    exact ⟨_, rfl, rfl, .inl ⟨rfl, rfl⟩, ite_label _ (ite_label _ rfl rfl) (ite_label _ rfl rfl), fun _ _ _ => rfl⟩
  case dvuf4 => exact ⟨_, rfl, rfl, .inr ⟨.inl rfl, rfl⟩, State.close_label _ rfl, fun _ _ _ => rfl⟩
  case dvswb => exact ⟨_, rfl, rfl, .inr ⟨.inr rfl, rfl⟩, State.close_label _ rfl, fun _ _ _ => rfl⟩
  all_goals exact absurd he Bool.false_ne_true

variable {i : Instr} {s t : State}

/-- The answer of an engine instruction is an `EngineStep`. -/
theorem engineStep_of_exec (he : isEngine i = true) (h : exec i s = .next t) : EngineStep i s t := by
  obtain ⟨u, hu, hstep⟩ := exec_engine i he s
  rw [h] at hu
  cases hu
  exact hstep

/-- An engine instruction leaves `pc_scratch` and the waiting moves alone and adds 2 to `cycles` (R14, R79, R208). -/
theorem exec_engine_beside (he : isEngine i = true) (h : exec i s = .next t) :
    t.pc_scratch = s.pc_scratch ∧ t.cycles = s.cycles + 2 ∧ t.inputs = s.inputs := by
  have hb := (engineStep_of_exec he h).beside s.pc_scratch s.cycles s.inputs
  rw [h] at hb
  injection hb with hb
  exact ⟨(congrArg State.pc_scratch hb :), (congrArg State.cycles hb :), (congrArg State.inputs hb :)⟩

/-- A step of a running block is the `EngineStep` of the label held. -/
theorem engineStep_of_step (hd : s.done = false) (h : step s = .next t) :
    ∃ i, isEngine i = true ∧ csCode i = some s.control_state ∧ exec i s = .next t ∧ EngineStep i s t := by
  obtain ⟨i, he, hc, hx⟩ := step_running_cases hd h
  exact ⟨i, he, hc, hx, engineStep_of_exec he hx⟩

/-- At a defined label that is not terminal a step executes the engine instruction of the label. -/
theorem step_of_label (hd : s.done = false) (hl : (decodeLabel s.control_state).isSome = true) :
    ∃ i, isEngine i = true ∧ csCode i = some s.control_state ∧ step s = exec i s := by
  obtain ⟨i, hi⟩ := Option.isSome_iff_exists.mp hl
  have he := isEngine_of_decodeLabel _ i hi hd
  have hc := csCode_of_decodeLabel _ i hi
  exact ⟨i, he, hc, step_of_engine i hc he⟩

/-! ## What the caller and an idle block can do -/

/-- The operation that `op` selects writes its entry label (R51, R70). -/
theorem exec_decodeCommand (op : BitVec 1) (hd : s.done = true) :
    exec (decodeCommand op) s = .next { s with control_state := entryLabel op } := by
  have h : exec (decodeCommand op) s = s.startInvocation op := by
    rcases BitVec.eq_zero_or_eq_one op with rfl | rfl <;> rfl
  rw [h, State.startInvocation, if_pos hd]

theorem entryLabel_defined (op : BitVec 1) : (decodeLabel (entryLabel op)).isSome = true := ite_label _ rfl rfl

/-- A terminal label that is executed changes nothing (R72). -/
theorem runLabel_of_done (hd : s.done = true) : runLabel s = .next s := by
  have hle := (isTerminalLabel_iff s.control_state).mp hd
  have hcase : s.control_state = Label.tNext ∨ s.control_state = Label.tTrap ∨ s.control_state = Label.tOvf ∨
      s.control_state = Label.tAddr := by
    simp only [BitVec.toNat_eq, BitVec.toNat_ofNat]
    omega
  rcases hcase with h | h | h | h
  · rw [runLabel_of_decode (i := .tNext) (by rw [h]; rfl)]; rfl
  · rw [runLabel_of_decode (i := .tTrap) (by rw [h]; rfl)]; rfl
  · rw [runLabel_of_decode (i := .tOvf) (by rw [h]; rfl)]; rfl
  · rw [runLabel_of_decode (i := .tAddr) (by rw [h]; rfl)]; rfl

/-- A write of `cycles` is made when the number is even and refused otherwise (R26, U7). -/
theorem makeMove_writeCycles (n : Nat) (s : State) : makeMove (.writeCycles n) s =
    if n % 2 = 0 then .next { s with cycles := n } else .refused .oddCyclesWritten := rfl

/-- A write of `control_state` is made when the code names a label and refused otherwise (R25). -/
theorem makeMove_writeControlState (v : LabelCode) (s : State) : makeMove (.writeControlState v) s =
    if (decodeLabel v).isSome then .next { s with control_state := v } else .refused .undefinedLabelWritten := rfl

/-- No move of the caller leaves an undefined label or an odd `cycles`. -/
theorem makeMove_sound {m : CallerMove} (hd : s.done = true) (hs : s.Sound) (h : makeMove m s = .next t) : t.Sound := by
  obtain ⟨hlabel, hcycles⟩ := hs
  cases m with
  | start op =>
    rw [makeMove, exec_decodeCommand op hd] at h
    cases h
    exact ⟨entryLabel_defined op, hcycles⟩
  | writeReg r v => cases h; exact ⟨by simpa using hlabel, by simpa using hcycles⟩
  | writePcScratch v => cases h; exact ⟨hlabel, hcycles⟩
  | writeCounter v => cases h; exact ⟨hlabel, hcycles⟩
  | writeFlags v => cases h; exact ⟨hlabel, hcycles⟩
  | writeCycles n =>
    rw [makeMove_writeCycles] at h
    split at h
    next hn => cases h; exact ⟨hlabel, hn⟩
    next => cases h
  | writeControlState v =>
    rw [makeMove_writeControlState] at h
    split at h
    next hv => cases h; exact ⟨hv, hcycles⟩
    next => cases h

/-- Settles O34: a running block by what a control state can do, an idle one by the caller's move, and one without a move by
the terminal label, which changes nothing. -/
theorem stepKeepsLabelDefinedAndCyclesEven : Obligations.StepKeepsLabelDefinedAndCyclesEven := by
  intro s t hs h
  cases hd : s.done with
  | false =>
    obtain ⟨i, he, -, hx, hstep⟩ := engineStep_of_step hd h
    obtain ⟨-, hcycles, -⟩ := exec_engine_beside he hx
    obtain ⟨-, heven⟩ := hs
    exact ⟨hstep.label, by omega⟩
  | true =>
    cases hi : s.inputs with
    | nil =>
      rw [step_of_no_inputs hi, runLabel_of_done hd] at h
      cases h
      exact hs
    | cons m rest =>
      rw [step_of_input hd hi] at h
      exact makeMove_sound (s := { s with inputs := rest }) hd hs h

/-- Settles O37: no control state writes `divisor` (R13). -/
theorem divisorIsNeverWrittenByAnEngine : Obligations.DivisorIsNeverWrittenByAnEngine := by
  intro s t hd h
  obtain ⟨i, -, -, -, hstep⟩ := engineStep_of_step hd h
  exact hstep.divisor

/-- Settles O38: `EngineStep.beside` with the entry's `cycles` and waiting moves, so that `pc_scratch` alone differs. -/
theorem pcScratchIsNeitherReadNorWritten : Obligations.PcScratchIsNeitherReadNorWritten := by
  intro s t v hd h
  obtain ⟨i, he, hc, hx, hstep⟩ := engineStep_of_step hd h
  obtain ⟨-, hcycles, hinputs⟩ := exec_engine_beside he hx
  calc step { s with pc_scratch := v }
    _ = exec i { s with pc_scratch := v } := step_of_engine (s := { s with pc_scratch := v }) i hc he
    _ = .next { t with pc_scratch := v, cycles := s.cycles + 2, inputs := s.inputs } := hstep.beside v s.cycles s.inputs
    _ = .next { t with pc_scratch := v } := by rw [← hcycles, ← hinputs]

/-- Settles O41: the label of an instruction that writes the dividend is the one of `DVUF4` or `DVSWB`. -/
theorem onlyWritebackChangesTheDividend : Obligations.OnlyWritebackChangesTheDividend := by
  intro s t hd h
  obtain ⟨i, -, hc, -, hstep⟩ := engineStep_of_step hd h
  refine hstep.dividend.imp_right fun ⟨hi, hnext⟩ => ⟨?_, hnext⟩
  rcases hi with rfl | rfl
  · exact .inl (Option.some.inj hc).symm
  · exact .inr (Option.some.inj hc).symm

/-! ## The register file and the caller's moves -/

/-- Writing a register by name changes that register and nothing else (R19). -/
theorem State.writeReg_frame (s : State) (r : Reg16) (v : Word) : StoredOnly s (s.writeReg r v) (some r) v ∧
    (s.writeReg r v).flags = s.flags ∧ SameBesideRegsAndFlags s (s.writeReg r v) :=
  ⟨fun q => by simp, by simp, by simp [SameBesideRegsAndFlags]⟩

/-- Settles O7: each move of the caller through `step_of_input`. -/
theorem idleStepMakesTheCallersMove : Obligations.IdleStepMakesTheCallersMove := by
  intro s rest hd
  have hstep (m : CallerMove) : step { s with inputs := m :: rest } = makeMove m { s with inputs := rest } :=
    step_of_input hd rfl
  refine ⟨hstep _, hstep _, fun r v => ⟨_, hstep _, State.writeReg_frame _ r v⟩, fun v => hstep _, fun v => hstep _,
    fun f => ?_, fun n hn => ?_, fun n hn => ?_, fun v hv => ?_, fun v hv => ?_⟩
  · rw [hstep, makeMove, Flags.unpack_pack]
  · rw [hstep, makeMove_writeCycles, if_pos hn]
  · rw [hstep, makeMove_writeCycles, if_neg (by omega)]
  · rw [hstep, makeMove_writeControlState, if_pos hv]
  · rw [hstep, makeMove_writeControlState, if_neg (by simp [hv])]

/-- Settles O13: a read by name is the field, and a write has the frame of `State.writeReg_frame`. -/
theorem registersAreSeparateStorage : Obligations.RegistersAreSeparateStorage := fun s =>
  ⟨⟨rfl, rfl, rfl, rfl, rfl, rfl, rfl, rfl⟩, s.writeReg_frame, fun _ => rfl, rfl, rfl⟩

/-- Settles O19: none of the three registers may receive the result of a primitive. -/
theorem primitivesNeverWriteTheOperandRegisters : Obligations.PrimitivesNeverWriteTheOperandRegisters := by
  intro s dst src r hr
  rcases hr with rfl | rfl | rfl
  · exact ⟨rfl, rfl, rfl⟩
  · exact ⟨rfl, rfl, rfl⟩
  · exact ⟨rfl, rfl, rfl⟩

/-! ## Two invocations with the same operands (R24, R32, R188)

Once both have loaded the working registers from the operands, they agree at every label on all that the engine may still read:
`counter`, `addr_hi` and `addr_lo` count only at the labels that follow their load (R17, R18). -/

/-- The labels at which `counter` has been loaded and may still be read: the loops up to the last shift. -/
def counterLabels : List LabelCode :=
  [Label.dvush0, Label.dvush1, Label.dvusbf, Label.dvusbt, Label.dvuchk, Label.dvurst,
    Label.dvssh0, Label.dvssh1, Label.dvssb, Label.dvsck, Label.dvsrs]

/-- The labels at which `addr_lo` holds a stash that may still be read, or the signed quotient on its way to the writeback. -/
def addrLoLabels : List LabelCode :=
  [Label.dvuchk, Label.dvurst, Label.dvuf3t, Label.dvsck, Label.dvsrs, Label.dvsf3, Label.dvspm3, Label.dvsmm3, Label.dvsmp3,
    Label.dvswb]

/-- The labels at which `addr_hi` holds the remainder on its way to the writeback. -/
def addrHiLabels : List LabelCode :=
  [Label.dvuf4, Label.dvsf4, Label.dvsf5, Label.dvsxp1, Label.dvsxn1, Label.dvspp2, Label.dvspm2, Label.dvspm3, Label.dvsmm2,
    Label.dvsmm3, Label.dvsmp2, Label.dvsmp3, Label.dvswb]

/-- `s₂` is `s₁` but for what the engine no longer reads: `pc_scratch`, the waiting moves, the scratch registers outside their
labels, and `cycles`, counted from `y₁` in the one and from `y₂` in the other. -/
structure Agree (y₁ y₂ : Nat) (s₁ s₂ : State) : Prop where
  same : ∃ p c lo hi n l,
    s₂ = { s₁ with pc_scratch := p, counter := c, addr_lo := lo, addr_hi := hi, cycles := n, inputs := l }
  cycles : y₂ + s₁.cycles = y₁ + s₂.cycles
  counter : s₁.control_state ∈ counterLabels → s₁.counter = s₂.counter
  addr_lo : s₁.control_state ∈ addrLoLabels → s₁.addr_lo = s₂.addr_lo
  addr_hi : s₁.control_state ∈ addrHiLabels → s₁.addr_hi = s₂.addr_hi

/-- Membership of a chosen label, label by label. -/
theorem mem_ite_iff {p : Prop} [Decidable p] {a b : LabelCode} {l : List LabelCode} :
    (if p then a else b) ∈ l ↔ if p then a ∈ l else b ∈ l := by
  split <;> rfl

variable {s₁ s₂ : State} {y₁ y₂ : Nat}

/-- Each control state keeps the agreement: at a label that reads a scratch register it is the same in both, and at the label
that follows its load it has been written from what is the same. -/
theorem exec_agree (he : isEngine i = true) (hc : csCode i = some s₁.control_state) (h : Agree y₁ y₂ s₁ s₂) :
    ∃ t₁ t₂, exec i s₁ = .next t₁ ∧ exec i s₂ = .next t₂ ∧ Agree y₁ y₂ t₁ t₂ := by
  obtain ⟨⟨p, c, lo, hi, n, l, rfl⟩, hy, hcnt, hlo, hhi⟩ := h
  have hy' := congrArg (· + 2) hy
  cases i
  case divideUnsigned | divideSigned | and | sub | subExtended | shiftLeftPair | tNext | tTrap | tOvf | tAddr | normal |
      divisionByZero | overflow =>
    exact absurd he Bool.false_ne_true
  -- At the label of each instruction a scratch register is either the same in both states or of no account.
  all_goals
    rw [← Option.some.inj hc] at hcnt hlo hhi
    simp +decide only [forall_const, false_imp_iff] at hcnt hlo hhi
    subst_vars
  -- The next states differ in the same fields only; the successors decide which of the scratch registers count there.
  case dvs2 =>
    refine ⟨_, _, execDvs2_eq _, execDvs2_eq _, ⟨_, _, _, _, _, _, rfl⟩, hy', ?_, ?_, ?_⟩ <;> simp +decide [mem_ite_iff]
  case dvuf3t =>
    refine ⟨_, _, execDvuf3t_eq _, execDvuf3t_eq _, ⟨_, _, _, _, _, _, rfl⟩, hy', ?_, ?_, ?_⟩ <;> simp +decide
  case dvsf3 =>
    refine ⟨_, _, execDvsf3_eq _, execDvsf3_eq _, ⟨_, _, _, _, _, _, rfl⟩, hy', ?_, ?_, ?_⟩ <;> simp +decide
  all_goals
    refine ⟨_, _, rfl, rfl, ⟨_, _, _, _, _, _, rfl⟩, hy', ?_, ?_, ?_⟩
    all_goals simp +decide [State.unsignedShiftNext, State.signedShiftNext, State.negate_eq, State.readReg, State.writeReg,
      mem_ite_iff]

/-- The agreement makes the two states held at the same label. -/
theorem Agree.control_state_eq (h : Agree y₁ y₂ s₁ s₂) : s₂.control_state = s₁.control_state := by
  obtain ⟨⟨p, c, lo, hi, n, l, rfl⟩, -, -, -, -⟩ := h
  rfl

/-- A run from two agreeing states, whatever its fuel, ends in two agreeing states. -/
theorem run_agree (k : Nat) (hl : (decodeLabel s₁.control_state).isSome = true) (h : Agree y₁ y₂ s₁ s₂) :
    ∃ t₁ t₂, runToTerminal k s₁ = .next t₁ ∧ runToTerminal k s₂ = .next t₂ ∧ Agree y₁ y₂ t₁ t₂ := by
  induction k generalizing s₁ s₂ with
  | zero => exact ⟨s₁, s₂, rfl, rfl, h⟩
  | succ k ih =>
    have hd₂ : s₂.done = s₁.done := congrArg isTerminalLabel h.control_state_eq
    cases hd : s₁.done with
    | true => exact ⟨s₁, s₂, runToTerminal_done hd _, runToTerminal_done (hd₂.trans hd) _, h⟩
    | false =>
      obtain ⟨i, he, hc, -⟩ := step_of_label hd hl
      obtain ⟨u₁, u₂, hx₁, hx₂, hu⟩ := exec_agree he hc h
      rw [run_label i hc he hx₁, run_label i (by rw [h.control_state_eq, hc]) he hx₂]
      exact ih (engineStep_of_exec he hx₁).label hu

/-! ## The first two control states, which load the working registers (R101, R102, R131, R132) -/

/-- `DVU1` and `DVU2`. -/
theorem run_unsignedEntry (h : s.control_state = Label.dvu1) (k : Nat) :
    runToTerminal (k + 2) s = runToTerminal k { s with
      alu_buf := s.divisor, alu := s.dividend_hi, alu_ext := s.dividend_lo, flags := subFlags s.dividend_hi s.divisor,
      control_state := if s.divisor.toNat = 0 then Label.tTrap else Label.dvu3, cycles := s.cycles + 4 } := by
  rw [run_label .dvu1 (by rw [h]; rfl) rfl (execDvu1_eq s), run_label .dvu2 rfl rfl (execDvu2_eq _)]
  simp [testFlags]

/-- `DVS1` and `DVS2`. -/
theorem run_signedEntry (h : s.control_state = Label.dvs1) (k : Nat) :
    runToTerminal (k + 2) s = runToTerminal k { s with
      alu_buf := absDivisor s, alu := s.dividend_hi, alu_ext := s.dividend_lo, flags := subFlags 0x0000#16 s.divisor,
      control_state := if s.divisor.toNat = 0 then Label.tTrap else if s.dividend_hi.msb then Label.dvsn1 else Label.dvsp0,
      cycles := s.cycles + 4 } := by
  rw [run_label .dvs1 (by rw [h]; rfl) rfl (execDvs1_eq s), run_label .dvs2 rfl rfl (execDvs2_eq _)]
  simp [testFlags, absDivisor, msb_eq_decide_le]

/-- The operation that `op` selects, as a run from its entry label (R70). -/
theorem invoke_of_done (op : BitVec 1) (hd : s.done = true) :
    invoke op s = runToTerminal maxStates { s with control_state := entryLabel op } := by
  rw [invoke, exec_decodeCommand op hd]

/-- From the entry label, with the same operands, the two runs agree: after two control states nothing of the entry is left in
a working register or a flag. -/
theorem run_entry_agree (op : BitVec 1) (k : Nat) (hl : s₁.control_state = entryLabel op)
    (hl₂ : s₂.control_state = entryLabel op) (hhi : s₁.dividend_hi = s₂.dividend_hi)
    (hlo : s₁.dividend_lo = s₂.dividend_lo) (hdv : s₁.divisor = s₂.divisor) :
    ∃ t₁ t₂, runToTerminal (k + 2) s₁ = .next t₁ ∧ runToTerminal (k + 2) s₂ = .next t₂ ∧
      Agree s₁.cycles s₂.cycles t₁ t₂ := by
  have hcyc : s₂.cycles + (s₁.cycles + 4) = s₁.cycles + (s₂.cycles + 4) := by omega
  rcases BitVec.eq_zero_or_eq_one op with rfl | rfl
  · rw [run_unsignedEntry hl, run_unsignedEntry hl₂, ← hhi, ← hlo, ← hdv]
    refine run_agree k (ite_label _ rfl rfl) ⟨⟨_, _, _, _, _, _, rfl⟩, hcyc, ?_, ?_, ?_⟩ <;> simp +decide [mem_ite_iff]
  · rw [run_signedEntry hl, run_signedEntry hl₂, absDivisor, absDivisor, ← hhi, ← hlo, ← hdv]
    refine run_agree k (ite_label _ rfl (ite_label _ rfl rfl)) ⟨⟨_, _, _, _, _, _, rfl⟩, hcyc, ?_, ?_, ?_⟩ <;>
      simp +decide [mem_ite_iff]

/-- Settles O56: both invocations agree after two control states (`run_entry_agree`) and so at their ends. -/
theorem invocationDependsOnItsOperandsAlone : Obligations.InvocationDependsOnItsOperandsAlone := by
  intro s₁ s₂ op hd₁ hd₂ hhi hlo hdv
  obtain ⟨t₁, t₂, h₁, h₂, ⟨p, c, lo, hi, n, l, rfl⟩, hcyc, -, -, -⟩ :=
    run_entry_agree (s₁ := { s₁ with control_state := entryLabel op }) (s₂ := { s₂ with control_state := entryLabel op })
      op 74 rfl rfl hhi hlo hdv
  rw [invoke_of_done op hd₁, invoke_of_done op hd₂]
  exact ⟨t₁, _, h₁, h₂, rfl, rfl, rfl, rfl, rfl, rfl, rfl, by dsimp only at hcyc ⊢; omega⟩

end Sys2Proof.Machine

/-! Proofs of the statements of `30_encoding.md` (O3, O1, O2, O4, O12, O14): the round trip by format, the rows a label code
selects, the terminal label of an outcome, and the packed flags as a number. -/

namespace Sys2Proof

/-! ## Codes and rows -/

theorem encode_of_csCode {i : Instr} {v : LabelCode} (h : csCode i = some v) : encode i = .cs v := by
  unfold csCode at h
  split at h
  next c hc => rw [hc, Option.some.inj h]
  next => cases h

/-- Format `CS` decodes by its rows. -/
theorem decode_cs_of_decodeLabel {v : LabelCode} {i : Instr} (h : decodeLabel v = some i) : decode (.cs v) = .instr i := by
  rw [decode, h]

/-- The decoder reads every well-formed instruction back from its code: the 49 of format `CS` by their rows, the nine of the
other formats one by one. -/
theorem decode_encode (i : Instr) (hwf : i.wellFormed = true) : decode (encode i) = .instr i := by
  cases hc : csCode i with
  | some v => rw [encode_of_csCode hc, decode_cs_of_decodeLabel (decodeLabel_of_csCode v i hc)]
  | none =>
    cases i
    case divideUnsigned => exact Laws.RoundTrip.divideUnsigned hwf
    case divideSigned => exact Laws.RoundTrip.divideSigned hwf
    case and dst src r => exact Laws.RoundTrip.and dst src r hwf
    case sub dst src r => exact Laws.RoundTrip.sub dst src r hwf
    case subExtended dst src r => exact Laws.RoundTrip.subExtended dst src r hwf
    case shiftLeftPair b => exact Laws.RoundTrip.shiftLeftPair b hwf
    case normal => exact Laws.RoundTrip.normal hwf
    case divisionByZero => exact Laws.RoundTrip.divisionByZero hwf
    case overflow => exact Laws.RoundTrip.overflow hwf
    all_goals cases hc

/-- Every mask is the full width, so that a row selects its own code alone (R59). -/
theorem selects_iff_of_mem_csRows {r : CsRow} (hr : r ∈ csRows) (v : LabelCode) : r.selects v = true ↔ v = r.code := by
  have hfull : v &&& 0x3F#6 = v := BitVec.and_allOnes
  rw [CsRow.selects, csRows_mask r hr, hfull, beq_iff_eq]

/-- Settles O3: the round trip `decode_encode`. -/
theorem decodeOfEncodeIsTheInstruction : Obligations.DecodeOfEncodeIsTheInstruction := decode_encode

/-- Settles O1: the rows written with their own code by the round trip; a function code of format `ALU` at all ports, and the
reserved tag, by the decoder of the format. -/
theorem codesSelectTheRowsOfTheirFormat : Obligations.CodesSelectTheRowsOfTheirFormat :=
  ⟨decode_encode .divideUnsigned rfl, decode_encode .divideSigned rfl,
    fun _ => rfl, fun _ => rfl, fun _ => rfl, fun _ => rfl,
    decode_encode .tAddr rfl, decode_encode .dvush0 rfl, decode_encode .dvssh0 rfl, decode_encode .dvswb rfl,
    decode_encode .normal rfl, decode_encode .divisionByZero rfl, decode_encode .overflow rfl, rfl⟩

/-- Settles O2: the code the table gives a label is the one by which the label is encoded. -/
theorem everyLabelHasItsCode : Obligations.EveryLabelHasItsCode := by
  unfold Obligations.EveryLabelHasItsCode
  and_intros
  all_goals exact decodeLabel_of_csCode _ _ rfl

/-- Settles O4: two rows that select a value both have it as their code, and no two rows share a code. -/
theorem everyLabelCodeSelectsAtMostOneRow : Obligations.EveryLabelCodeSelectsAtMostOneRow := by
  intro v
  refine ⟨fun r₁ h₁ r₂ h₂ hs₁ hs₂ => ?_, isTerminalLabel_iff_fields v, decodeLabel_eq_none_iff v⟩
  rw [selects_iff_of_mem_csRows h₁] at hs₁
  rw [selects_iff_of_mem_csRows h₂] at hs₂
  exact csRows_code_injective r₁ h₁ r₂ h₂ (hs₁.symm.trans hs₂)

end Sys2Proof

namespace Sys2Proof.Machine

/-! ## Outcomes and flags -/

/-- The terminal label of an outcome gives the outcome back, and no other label gives it (R73). -/
theorem outcomeOf_eq_some_iff (l : LabelCode) (o : OutcomeTag) : outcomeOf l = some o ↔ l = o.label := by
  constructor
  · intro h
    unfold outcomeOf at h
    split_ifs at h with hnormal hzero hoverflow <;> cases h
    · exact hnormal
    · exact hzero
    · exact hoverflow
  · rintro rfl
    cases o <;> rfl

theorem OutcomeTag.isTerminalLabel_label (o : OutcomeTag) : isTerminalLabel o.label = true := by
  cases o <;> rfl

theorem isTerminalLabel_of_outcomeOf {l : LabelCode} (h : outcomeOf l ≠ none) : isTerminalLabel l = true := by
  obtain ⟨o, ho⟩ := Option.ne_none_iff_exists'.mp h
  rw [(outcomeOf_eq_some_iff l o).mp ho]
  exact o.isTerminalLabel_label

/-- The packed flags as a number (R55). -/
theorem Flags.pack_toNat (f : Flags) :
    f.pack.toNat = f.x.toNat * 16 + f.n.toNat * 8 + f.z.toNat * 4 + f.v.toNat * 2 + f.c.toNat := by
  simp only [Flags.pack, append_toNat, BitVec.toNat_ofBool]
  omega

/-- Settles O12: reporting an outcome writes its terminal label, and `outcomeOf` is the inverse of `OutcomeTag.label`. -/
theorem outcomeIsTheTerminalLabel : Obligations.OutcomeIsTheTerminalLabel := by
  intro s
  refine ⟨rfl, rfl, rfl, fun o => ⟨?_, o.isTerminalLabel_label, ?_⟩, fun _ => isTerminalLabel_of_outcomeOf, rfl⟩
  · rw [State.report_control_state, outcomeOf_eq_some_iff]
  · cases o <;> rfl

/-- Settles O14: the number by `Flags.pack_toNat`, the two inverse laws by those of the packed form. -/
theorem flagsPackInTheListedOrder : Obligations.FlagsPackInTheListedOrder :=
  ⟨fun f => ⟨f.pack_toNat, f.unpack_pack⟩, Flags.pack_unpack⟩

end Sys2Proof.Machine

/-! Proofs of the statements of `40_sequencer.md` (O45, O36, O40, O43, O5, O6, O9, O11): every invocation ends, by the run of each
engine stage by stage; then what a step of a running block depends on; then the label held, the operations and the terminal labels. -/

namespace Sys2Proof.Machine

variable {s t u : State} {b : Bool} {i : Instr} {n d Q r lo : Nat}

/-! ## Runs that end (R76) -/

/-- From `s`, at most `k` control states lead to a terminal label. -/
def EndsWithin (k : Nat) (s : State) : Prop := ∃ t, runToTerminal k s = .next t ∧ t.done = true

theorem endsWithin_of_done (k : Nat) (hd : s.done = true) : EndsWithin k s := ⟨s, runToTerminal_done hd k, hd⟩

/-- A run that has reached a terminal label is not changed by more fuel. -/
theorem runToTerminal_add {k : Nat} (h : runToTerminal k s = .next t) (ht : t.done = true) (m : Nat) :
    runToTerminal (k + m) s = .next t := by
  induction k generalizing s with
  | zero => cases h; exact runToTerminal_done ht _
  | succ k ih =>
    cases hd : s.done with
    | true => rwa [runToTerminal_done hd] at h ⊢
    | false =>
      cases hs : step s with
      | next u =>
        rw [runToTerminal_step hd hs] at h
        rw [Nat.succ_add, runToTerminal_step hd hs]
        exact ih h
      | fault f => simp [runToTerminal, hd, hs] at h
      | refused f => simp [runToTerminal, hd, hs] at h

theorem EndsWithin.mono {j k : Nat} (h : EndsWithin j s) (hjk : j ≤ k) : EndsWithin k s := by
  obtain ⟨t, hrun, ht⟩ := h
  obtain ⟨m, rfl⟩ := Nat.exists_eq_add_of_le hjk
  exact ⟨t, runToTerminal_add hrun ht m, ht⟩

/-- `j` control states that lead from `s` to `u`, and then the run from `u`. -/
theorem EndsWithin.of_run {j k : Nat} (h : EndsWithin k u) (hrun : ∀ k, runToTerminal (k + j) s = runToTerminal k u) :
    EndsWithin (k + j) s := by
  obtain ⟨t, ht, hd⟩ := h
  exact ⟨t, (hrun k).trans ht, hd⟩

theorem ite_terminal (p : Prop) [Decidable p] {a b : LabelCode} (ha : isTerminalLabel a = true)
    (hb : isTerminalLabel b = true) : isTerminalLabel (if p then a else b) = true := by
  split
  · exact ha
  · exact hb

/-! ### The unsigned engine (R100 to R116) -/

/-- Fifteen steps of at most four control states, and the four of the finish. -/
theorem unsignedLoop_endsWithin (h : LoopAt n d 16 Q r lo b s) (hl : s.control_state = unsignedShiftLabel b) :
    EndsWithin 64 s := by
  obtain ⟨j, t, b', Q', r', lo', hj, hrun, hat, hlab, -⟩ := unsigned_loop 15 h hl
  obtain ⟨hlast, -⟩ := hat.last
  have hfinish : EndsWithin 4 t := ⟨_, run_unsignedFinish hlab hlast 0, rfl⟩
  exact (hfinish.of_run hrun).mono (by omega)

/-- The overflow exit (R104, R105). -/
theorem unsignedOverflow_endsWithin (h : s.control_state = Label.dvuo1) : EndsWithin 2 s :=
  ((endsWithin_of_done 0 rfl).of_run (run_label .dvuo2 rfl rfl (execDvuo2_eq _))).of_run
    (run_label .dvuo1 (by rw [h]; rfl) rfl (execDvuo1_eq s))

/-- The pretest `DVU3`, with C the borrow of its compare, and what follows it. -/
theorem unsignedPretest_endsWithin (h : s.control_state = Label.dvu3)
    (hc : s.flags.c = decide (s.alu.toNat < s.alu_buf.toNat)) : EndsWithin 65 s := by
  refine EndsWithin.of_run (k := 64) ?_ (run_label .dvu3 (by rw [h]; rfl) rfl (execDvu3_eq s))
  by_cases hlt : s.alu.toNat < s.alu_buf.toNat
  · rw [decide_eq_true hlt] at hc
    exact unsignedLoop_endsWithin (b := false) (.start rfl rfl hlt) (if_pos hc)
  · rw [decide_eq_false hlt] at hc
    exact (unsignedOverflow_endsWithin (if_neg (by simp [hc]))).mono (by omega)

theorem unsigned_endsWithin (h : s.control_state = Label.dvu1) : EndsWithin 67 s := by
  refine EndsWithin.of_run (k := 65) ?_ (run_unsignedEntry h)
  by_cases hz : s.divisor.toNat = 0
  · exact endsWithin_of_done _ (by rw [State.done, if_pos hz]; rfl)
  · exact unsignedPretest_endsWithin (if_neg hz) rfl

/-! ### The signed engine (R130 to R159) -/

/-- The fix-up of each quadrant: at most four control states. -/
theorem signedFixup_endsWithin (h : s.control_state = if b then Label.dvsxn1 else Label.dvsxp1) : EndsWithin 4 s := by
  cases b <;> cases hn : s.flags.n
  · exact ⟨_, run_signedPlusPlus h hn 1, ite_terminal _ rfl rfl⟩
  · exact ⟨_, run_signedPlusMinus h hn 0, ite_terminal _ rfl rfl⟩
  · exact ⟨_, run_signedMinusPlus h hn 0, ite_terminal _ rfl rfl⟩
  · exact ⟨_, run_signedMinusMinus h hn 0, ite_terminal _ rfl rfl⟩

/-- Fifteen steps of at most four control states, the five of the finish, and the fix-up. -/
theorem signedLoop_endsWithin (hd : d ≤ 32768) (h : LoopAt n d 16 Q r lo b s)
    (hl : s.control_state = signedShiftLabel b) : EndsWithin 69 s := by
  obtain ⟨j, t, b', Q', r', lo', hj, hrun, hat, hlab, -⟩ := signed_loop hd 15 h hl
  obtain ⟨hlast, -⟩ := hat.last
  obtain ⟨htop, -⟩ := hat.signed_shifted hd
  have hfinish : EndsWithin 9 t := (signedFixup_endsWithin rfl).of_run (run_signedFinish hlab hlast htop)
  exact (hfinish.of_run hrun).mono (by omega)

/-- The absolute value of a word is at most 32768 (R16). -/
theorem natAbs_toInt_le (v : Word) : v.toInt.natAbs ≤ 32768 := by
  have hlow := v.le_toInt
  have hhigh := v.toInt_lt
  omega

theorem signed_endsWithin (h : s.control_state = Label.dvs1) : EndsWithin 76 s := by
  by_cases hz : s.divisor.toNat = 0
  · exact ⟨_, run_signedDivisionByZero h hz 74, rfl⟩
  obtain ⟨j, u, hj, hrun, hlab, -, hbuf, -, hcnt, -⟩ := run_signedSetup h hz
  have hj7 : j ≤ 7 := by rw [hj]; split <;> omega
  have hrest : EndsWithin 69 u := by
    by_cases hlt : u.alu.toNat < u.alu_buf.toNat
    · rw [if_pos hlt] at hlab
      exact signedLoop_endsWithin (b := false) (hbuf ▸ natAbs_toInt_le _) (.start hcnt rfl hlt) hlab
    · rw [if_neg hlt] at hlab
      exact ⟨_, run_signedEarlyOverflow hlab 67, rfl⟩
  exact (hrest.of_run hrun).mono (by omega)

/-! ### From the run to the invocation -/

/-- The first of `k + 1` steps of the machine answers a next state when all of them together do. -/
theorem step_of_coreRun_succ {k : Nat} (h : Host.Core.run Sys2Proof.core (k + 1) s = .next t) :
    ∃ u, step s = .next u ∧ Host.Core.run Sys2Proof.core k u = .next t := by
  cases hs : step s with
  | next u => exact ⟨u, rfl, (coreRun_succ hs k).symm.trans h⟩
  | fault f => simp only [Host.Core.run, show Sys2Proof.core.step s = .fault f from hs] at h; cases h
  | refused f => simp only [Host.Core.run, show Sys2Proof.core.step s = .refused f from hs] at h; cases h

/-- Each control state of a run costs 2 cycles (R208). -/
theorem coreRun_cycles {k : Nat} (h : Host.Core.run Sys2Proof.core k s = .next t)
    (hr : ∀ j, j < k → ∃ u : State, Host.Core.run Sys2Proof.core j s = .next u ∧ u.done = false) :
    t.cycles = s.cycles + 2 * k := by
  induction k generalizing s with
  | zero => cases h; rfl
  | succ k ih =>
    obtain ⟨u, hs, hu⟩ := step_of_coreRun_succ h
    obtain ⟨_, hsame, hd⟩ := hr 0 k.succ_pos
    cases hsame
    obtain ⟨i, he, -, hx⟩ := step_running_cases hd hs
    obtain ⟨-, hcycles, -⟩ := exec_engine_beside he hx
    have hrest := ih hu fun j hj => by
      obtain ⟨v, hv, hvd⟩ := hr (j + 1) (Nat.succ_lt_succ hj)
      exact ⟨v, (coreRun_succ hs j).symm.trans hv, hvd⟩
    omega

/-- The operation that `op` selects ends within the bound of its engine (R76). -/
theorem endsWithin_of_entryLabel (op : BitVec 1) (h : s.control_state = entryLabel op) :
    EndsWithin (if op = 0#1 then 67 else 76) s := by
  rcases BitVec.eq_zero_or_eq_one op with rfl | rfl
  · exact unsigned_endsWithin h
  · exact signed_endsWithin h

/-- Settles O45: the run from the entry label ends within the bound (`endsWithin_of_entryLabel`), is a run of the machine, and is
the one that `invoke` makes with more fuel. -/
theorem everyInvocationReachesATerminalLabel : Obligations.EveryInvocationReachesATerminalLabel := by
  intro s op hd
  obtain ⟨t, hrun, ht⟩ := endsWithin_of_entryLabel (s := { s with control_state := entryLabel op }) op rfl
  obtain ⟨k, hk, hcore, hrunning⟩ := coreRun_of_runToTerminal hrun
  have hfuel : (if op = 0#1 then 67 else 76) ≤ maxStates := by rw [maxStates]; split <;> omega
  obtain ⟨m, hm⟩ := Nat.exists_eq_add_of_le hfuel
  refine ⟨_, t, k, exec_decodeCommand op hd, hk, hcore, ht, (coreRun_cycles hcore hrunning :), ?_, hrunning⟩
  rw [invoke_of_done op hd, hm]
  exact runToTerminal_add hrun ht m

/-! ## What a step of a running block depends on -/

/-- Settles O36: a defined label that is not terminal selects an engine instruction, and each of them answers a next state. -/
theorem runningStepNeverStops : Obligations.RunningStepNeverStops := by
  intro s ⟨hlabel, _⟩ hd
  obtain ⟨i, he, -, hstep⟩ := step_of_label hd hlabel
  obtain ⟨t, ht, -⟩ := exec_engine i he s
  exact ⟨t, hstep.trans ht⟩

/-- Settles O40: `EngineStep.beside` with the entry's `pc_scratch` and `cycles`, so that the waiting moves alone differ. -/
theorem runningBlockIgnoresTheCaller : Obligations.RunningBlockIgnoresTheCaller := by
  intro s t l hd h
  obtain ⟨i, he, hc, hx, hstep⟩ := engineStep_of_step hd h
  obtain ⟨hpc, hcycles, -⟩ := exec_engine_beside he hx
  calc step { s with inputs := l }
    _ = exec i { s with inputs := l } := step_of_engine (s := { s with inputs := l }) i hc he
    _ = .next { t with pc_scratch := s.pc_scratch, cycles := s.cycles + 2, inputs := l } :=
      hstep.beside s.pc_scratch s.cycles l
    _ = .next { t with inputs := l } := by rw [← hpc, ← hcycles]

/-- `s` with the flags V and X at other values. -/
def State.withOverflowExtend (s : State) (x v : Bool) : State := { s with flags := { s.flags with x := x, v := v } }

/-- No engine instruction chooses its successor by V or X (R74): it has one, or it chooses by C, N or Z, or by registers. -/
theorem exec_engine_successor (he : isEngine i = true) (s : State) (x v : Bool) :
    ∃ t u, exec i s = .next t ∧ exec i (s.withOverflowExtend x v) = .next u ∧ u.control_state = t.control_state := by
  cases i
  -- One successor.
  case dvu1 | dvuo1 | dvuo2 | dvusbf | dvusbt | dvurst | dvuf2f | dvuf2t | dvuf3f | dvuf4 | dvs1 | dvsp0 | dvsn1 | dvsn2 |
      dvsa | dvsc | dvso1 | dvsovx | dvssb | dvsrs | dvsf2 | dvsf4 | dvspm2 | dvsmm2 | dvsmp2 | dvswb =>
    exact ⟨_, _, rfl, rfl, rfl⟩
  case dvuf3t => exact ⟨_, _, execDvuf3t_eq s, execDvuf3t_eq _, rfl⟩
  case dvsf3 => exact ⟨_, _, execDvsf3_eq s, execDvsf3_eq _, rfl⟩
  -- By C.
  case dvu3 | dvuchk | dvsk | dvsck => exact ⟨_, _, rfl, rfl, rfl⟩
  -- By N.
  case dvsf5 | dvsxp1 | dvsxn1 | dvspp2 | dvsmm3 => exact ⟨_, _, rfl, rfl, rfl⟩
  -- By Z, by N and Z, and by Z and the dividend's sign.
  case dvu2 | dvspm3 | dvsmp3 => exact ⟨_, _, rfl, rfl, rfl⟩
  case dvs2 => exact ⟨_, _, execDvs2_eq s, execDvs2_eq _, rfl⟩
  -- By `counter` and the top bit of `alu`.
  case dvush0 | dvush1 | dvssh0 | dvssh1 => exact ⟨_, _, rfl, rfl, rfl⟩
  all_goals exact absurd he Bool.false_ne_true

/-- Settles O43: the step is the engine instruction of the label held, whatever V and X hold, and its successor by
`exec_engine_successor`. -/
theorem successorIgnoresOverflowAndExtend : Obligations.SuccessorIgnoresOverflowAndExtend := by
  intro s t x v hd h
  obtain ⟨i, he, hc, hx⟩ := step_running_cases hd h
  obtain ⟨t', u, ht, hu, hlabel⟩ := exec_engine_successor he s x v
  cases hx.symm.trans ht
  exact ⟨u, (step_of_engine (s := s.withOverflowExtend x v) i hc he).trans hu, hlabel⟩

/-! ## The label held, the operations, the terminal labels -/

/-- Settles O5: with no move of the caller to make, a step runs the label held. -/
theorem stepExecutesTheLabelHeld : Obligations.StepExecutesTheLabelHeld := by
  intro s i hidle hi
  have hstep : step s = runLabel s := hidle.elim step_of_running step_of_no_inputs
  rw [hstep, runLabel_of_decode hi]

/-- Settles O6: a code in a gap is not terminal, so that no move is made, and selects no row (R58). -/
theorem undefinedLabelHasNoStep : Obligations.UndefinedLabelHasNoStep := by
  intro s hgap
  have hrunning : s.done = false := by
    rw [State.done, ← Bool.not_eq_true, isTerminalLabel_iff]
    omega
  rw [step_of_running hrunning, runLabel, (decodeLabel_eq_none_iff _).mpr hgap]

/-- Settles O9: the entry label of each operation, by `exec_decodeCommand`. -/
theorem startWritesTheEntryLabel : Obligations.StartWritesTheEntryLabel := fun _ hd =>
  ⟨exec_decodeCommand 0#1 hd, exec_decodeCommand 1#1 hd⟩

/-- Settles O11: the four meanings are the identity, and an idle block without a move executes one of them. -/
theorem terminalLabelsHaveNoAction : Obligations.TerminalLabelsHaveNoAction := fun s =>
  ⟨rfl, rfl, rfl, rfl, isTerminalLabel_iff s.control_state, fun hd hi => (step_of_no_inputs hi).trans (runLabel_of_done hd)⟩

end Sys2Proof.Machine

/-! Proofs of the statements of `41_alu_primitives.md` (O44, O15, O16, O17, O18): an allowed primitive issues its ALU operation,
whose result and frame are `State.issueAnd_stored`, `State.issueAnd_beside` and their likes; then the two-limb negate. -/

namespace Sys2Proof.Machine

variable {s : State} {dst src : AluOperand} {dest : Option Reg16}

/-! ## The two-limb negate (R93, R203) -/

/-- Settles O44: `DVSN1` leaves the borrow of the low limb in X and `DVSN2` subtracts it from the high one, which together is
`negate_pair_toNat`. -/
theorem twoLimbNegateNegatesThePair : Obligations.TwoLimbNegateNegatesThePair := fun s h =>
  ⟨_, _, (step_of_engine .dvsn1 (by rw [h]; rfl) rfl).trans (execDvsn1_eq s),
    (step_of_engine .dvsn2 rfl rfl).trans (execDvsn2_eq _), rfl, rfl, negate_pair_toNat s.alu s.alu_ext⟩

/-! ## A primitive whose result may go to its place is issued (R85, R90) -/

theorem exec_and_of_resultAllowed (h : resultAllowed dest = true) :
    exec (.and dst src dest) s = .next (s.issueAnd dst src dest) := if_pos h

theorem exec_sub_of_resultAllowed (h : resultAllowed dest = true) :
    exec (.sub dst src dest) s = .next (s.issueSub dst src dest) := if_pos h

theorem exec_subExtended_of_resultAllowed (h : resultAllowed dest = true) :
    exec (.subExtended dst src dest) s = .next (s.issueSubx dst src dest) := if_pos h

/-! ## Results and flags in the words of the rules -/

/-- The five flags of `and` (R86). -/
theorem and16_f (a b : Word) (f : Flags) : (and16 a b f).f =
    { x := f.x, n := (a &&& b).getLsbD 15, z := decide ((a &&& b).toNat = 0), v := false, c := false } := by
  rw [and16, msb_eq_bit15, beq_zero_eq_decide]

theorem State.issueSub_flags (s : State) (dst src : AluOperand) (dest : Option Reg16) :
    (s.issueSub dst src dest).flags = subFlags (s.operand dst) (s.operand src) := by
  simp [State.issueSub]

/-- The difference modulo `2^16` (R87). -/
theorem sub_toNat (a b : Word) : (a - b).toNat = (a.toNat + 65536 - b.toNat) % 65536 := by
  have hb := b.isLt
  rw [BitVec.toNat_sub]
  omega

/-- Equal operands are those with the difference zero: Z of `subFlags` (R87). -/
theorem toNat_eq_iff_sub_toNat_eq_zero (a b : Word) : a.toNat = b.toNat ↔ (a - b).toNat = 0 := by
  have ha := a.isLt
  have hb := b.isLt
  rw [sub_toNat]
  omega

/-- Settles O15: the result and the frame of the issued `and`, the flags by `and16_f`. -/
theorem andGivesResultAndFlags : Obligations.AndGivesResultAndFlags := fun s dst src dest h =>
  ⟨_, exec_and_of_resultAllowed h, s.issueAnd_stored dst src dest, and16_f _ _ _, s.issueAnd_beside dst src dest⟩

/-- Settles O16: the result and the frame of the issued `sub`; its flags are `subFlags`, read one by one. -/
theorem subGivesResultAndFlags : Obligations.SubGivesResultAndFlags := by
  intro s dst src dest h
  refine ⟨_, s.operand dst - s.operand src, exec_sub_of_resultAllowed h, sub_toNat _ _, s.issueSub_stored dst src dest, ?_⟩
  rw [State.issueSub_flags]
  exact ⟨rfl, decide_eq_true_iff, decide_eq_true_iff, decide_eq_true_iff.trans (toNat_eq_iff_sub_toNat_eq_zero _ _),
    decide_eq_true_iff, s.issueSub_beside dst src dest⟩

/-- Settles O17: the result and the frame of the issued `sub_extended`, which puts the flags back as they were. -/
theorem subExtendedSubtractsTheResidentExtend : Obligations.SubExtendedSubtractsTheResidentExtend :=
  fun s dst src dest h =>
    ⟨_, _, exec_subExtended_of_resultAllowed h, subx16_r_toNat _ _ _, s.issueSubx_stored dst src dest, rfl,
      s.issueSubx_beside dst src dest⟩

/-- Cutting a pair in its halves and joining them is the pair (R41). -/
theorem pair_extract (p : Long) : pair (p.extractLsb' 16 16) (p.extractLsb' 0 16) = p := by
  have hjoin : pair (p.extractLsb' 16 16) (p.extractLsb' 0 16) = p.extractLsb' 0 32 :=
    BitVec.extractLsb'_append_extractLsb'_eq_extractLsb' rfl
  rw [hjoin, BitVec.extractLsb'_eq_self]

/-- Settles O18: the issued shift writes both halves of `shiftPair`, the pair as a number by `shiftPair_toNat`. -/
theorem shiftLeftPairShiftsThePair : Obligations.ShiftLeftPairShiftsThePair := by
  intro s b
  refine ⟨_, rfl, ?_, s.issueShift_eq b⟩
  have hpair : (s.issueShift b).workingPair = shiftPair s.workingPair b := pair_extract _
  rw [hpair, shiftPair_toNat]

end Sys2Proof.Machine

/-! Proofs of the statements of `42_divide_unsigned.md` (O46, O47, O48, O55, O20 to O25): the three ends of an unsigned invocation,
each with its whole end state or all that is known of it; then the bounds of the cycles of both engines; then the control states. -/

namespace Sys2Proof.Machine

variable {s t u : State} {b : Bool}

/-! ## The three ends of an unsigned invocation (R100, R118 to R120) -/

/-- A run that has reached a terminal label is the run with any larger fuel. -/
theorem runToTerminal_of_le {k m : Nat} (h : runToTerminal k s = .next t) (ht : t.done = true) (hk : k ≤ m) :
    runToTerminal m s = .next t := by
  obtain ⟨i, rfl⟩ := Nat.exists_eq_add_of_le hk
  exact runToTerminal_add h ht i

/-- A run from the entry label that ends within the fuel of `invoke` is the invocation (R70, R76). -/
theorem invoke_of_run {op : BitVec 1} {k : Nat} (hd : s.done = true)
    (h : runToTerminal k { s with control_state := entryLabel op } = .next t) (ht : t.done = true) (hk : k ≤ maxStates) :
    invoke op s = .next t :=
  (invoke_of_done op hd).trans (runToTerminal_of_le h ht hk)

/-- What the three control states of the setup and the pretest leave when the divisor is not zero (R101 to R103). -/
def State.unsignedPretested (s : State) : State := { s with
  alu_buf := s.divisor, alu := s.dividend_hi, alu_ext := s.dividend_lo, flags := subFlags s.dividend_hi s.divisor,
  counter := 16#32, control_state := if s.dividend_hi.toNat < s.divisor.toNat then Label.dvush0 else Label.dvuo1,
  cycles := s.cycles + 6 }

theorem run_unsignedPretest (hz : s.divisor.toNat ≠ 0) (k : Nat) :
    runToTerminal (k + 3) { s with control_state := entryLabel 0#1 } = runToTerminal k s.unsignedPretested := by
  rw [run_unsignedEntry rfl, if_neg hz, run_label .dvu3 rfl rfl (execDvu3_eq _)]
  simp [subFlags, State.unsignedPretested]

theorem State.unsignedPretested_workingPair (s : State) : s.unsignedPretested.workingPair = s.dividend := rfl

/-- The invariant at the start of the loop, when the pretest found no overflow (R103, R117). -/
theorem loopAt_unsignedPretested (hlt : s.dividend_hi.toNat < s.divisor.toNat) :
    LoopAt s.dividend.toNat s.divisor.toNat 16 0 s.dividend_hi.toNat s.dividend_lo.toNat false s.unsignedPretested := by
  rw [← s.unsignedPretested_workingPair]
  exact .start rfl rfl hlt

/-- The overflow exit: two control states (R104, R105). -/
theorem run_unsignedOverflow (h : s.control_state = Label.dvuo1) (k : Nat) :
    runToTerminal (k + 2) s = .next { s with control_state := Label.tOvf, cycles := s.cycles + 4 } := by
  rw [run_label .dvuo1 (by rw [h]; rfl) rfl (execDvuo1_eq s), run_label .dvuo2 rfl rfl (execDvuo2_eq _)]
  exact runToTerminal_done rfl k

/-- The end by `DivisionByZero` (R102, R120). -/
def State.unsignedZeroEnd (s : State) : State := { s with
  alu_buf := s.divisor, alu := s.dividend_hi, alu_ext := s.dividend_lo, flags := subFlags s.dividend_hi s.divisor,
  control_state := Label.tTrap, cycles := s.cycles + 4 }

/-- The end by `Overflow` (R103 to R105, R120). -/
def State.unsignedOverflowEnd (s : State) : State := { s with
  alu_buf := s.divisor, alu := s.dividend_hi, alu_ext := s.dividend_lo, flags := subFlags s.dividend_hi s.divisor,
  counter := 16#32, control_state := Label.tOvf, cycles := s.cycles + 10 }

/-- The end `t` by `Normal` of the unsigned invocation from `s` (R118 to R120). -/
structure UnsignedNormalEnd (s t : State) : Prop where
  label : t.control_state = Label.tNext
  quotient : t.dividend_lo.toNat = s.dividend.toNat / s.divisor.toNat
  remainder : t.dividend_hi.toNat = s.dividend.toNat % s.divisor.toNat
  cycles : t.cycles = s.cycles + (6 + costUSteps s.dividend.toNat s.divisor.toNat 15 (s.dividend.toNat / 65536) + 8)
  divisor : t.divisor = s.divisor
  pc_scratch : t.pc_scratch = s.pc_scratch
  alu_buf : t.alu_buf = s.divisor
  alu_ext : t.alu_ext = t.dividend_lo
  addr_hi : t.addr_hi = t.dividend_hi
  counter : t.counter = 0#32
  flags : t.flags = subFlags (BitVec.ofNat 16 (lastShifted s.dividend.toNat s.divisor.toNat)) s.divisor
  alu : t.alu = BitVec.ofNat 16 (2 * (lastShifted s.dividend.toNat s.divisor.toNat + 65536 - s.divisor.toNat))
  addr_lo : StashedByLastTrial s.dividend.toNat s.divisor.toNat 0 s.addr_lo t.addr_lo

/-- The high half of the dividend, as a number. -/
theorem State.dividend_div (s : State) : s.dividend.toNat / 65536 = s.dividend_hi.toNat := by
  have hlo := s.dividend_lo.isLt
  rw [State.dividend, pair_toNat]
  omega

theorem invoke_unsigned_zero (hd : s.done = true) (hz : s.divisor.toNat = 0) :
    invoke 0#1 s = .next s.unsignedZeroEnd := by
  refine invoke_of_run (k := 2) hd ?_ rfl (by decide)
  rw [run_unsignedEntry rfl, if_pos hz]
  rfl

theorem invoke_unsigned_overflow (hd : s.done = true) (hz : s.divisor.toNat ≠ 0)
    (hov : s.divisor.toNat ≤ s.dividend_hi.toNat) : invoke 0#1 s = .next s.unsignedOverflowEnd := by
  refine invoke_of_run (k := 2 + 3) hd ?_ rfl (by decide)
  rw [run_unsignedPretest hz, run_unsignedOverflow (if_neg (Nat.not_lt.mpr hov)) 0]
  rfl

/-- The pretest passed: the fifteen steps of the loop from the invariant at its start, and the finish from the invariant before
the sixteenth shift. -/
theorem invoke_unsigned_normal (hd : s.done = true) (hlt : s.dividend_hi.toNat < s.divisor.toNat) :
    ∃ t, invoke 0#1 s = .next t ∧ UnsignedNormalEnd s t := by
  have hpre := run_unsignedPretest (Nat.ne_zero_of_lt hlt)
  obtain ⟨j, v, b, Q, r, lo, hj, hrun, hat, hlab, hcyc, hcost, hframe, hstash⟩ :=
    unsigned_loop 15 (loopAt_unsignedPretested hlt) (if_pos hlt)
  obtain ⟨hlast, -⟩ := hat.last
  have hbuf : v.alu_buf = s.divisor := hframe.alu_buf
  have hcycles : v.cycles = s.cycles + 6 + 2 * j := hcyc
  refine ⟨_, invoke_of_run (k := 4 + j + 3) hd ((hpre _).trans ((hrun _).trans (run_unsignedFinish hlab hlast 0))) rfl
    (by rw [maxStates]; omega), rfl, hat.collectedQuotient_toNat, hat.collectedRemainder_toNat, ?_, hframe.divisor,
    hframe.pc_scratch, hbuf, rfl, rfl, rfl, ?_, hat.collectedAlu_eq, hat.stash_last (hstash _ (.start _ _ _))⟩
  · rw [s.dividend_div, ← hcost]
    dsimp only
    omega
  · dsimp only
    rw [hat.shiftedAlu_last, hbuf]

/-- Every unsigned invocation comes to one of its three ends, division by zero before overflow (R100, R118). -/
theorem invoke_unsigned_cases (hd : s.done = true) : ∃ t, invoke 0#1 s = .next t ∧
    ((s.divisor.toNat = 0 ∧ t = s.unsignedZeroEnd) ∨
      (s.divisor.toNat ≠ 0 ∧ s.divisor.toNat ≤ s.dividend_hi.toNat ∧ t = s.unsignedOverflowEnd) ∨
      (s.divisor.toNat ≠ 0 ∧ ¬ s.divisor.toNat ≤ s.dividend_hi.toNat ∧ UnsignedNormalEnd s t)) := by
  by_cases hz : s.divisor.toNat = 0
  · exact ⟨_, invoke_unsigned_zero hd hz, .inl ⟨hz, rfl⟩⟩
  by_cases hov : s.divisor.toNat ≤ s.dividend_hi.toNat
  · exact ⟨_, invoke_unsigned_overflow hd hz hov, .inr (.inl ⟨hz, hov, rfl⟩)⟩
  · obtain ⟨t, ht, hend⟩ := invoke_unsigned_normal hd (Nat.lt_of_not_le hov)
    exact ⟨t, ht, .inr (.inr ⟨hz, hov, hend⟩)⟩

/-- Settles O46: the three ends in the order of the law; the normal one has the quotient and the remainder. -/
theorem unsignedDivisionResult : Obligations.UnsignedDivisionResult := by
  intro s hd
  obtain ⟨t, ht, ⟨hz, rfl⟩ | ⟨hz, hov, rfl⟩ | ⟨hz, hov, hend⟩⟩ := invoke_unsigned_cases hd
  · exact ⟨_, ht, rfl, by rw [if_pos hz]; exact ⟨rfl, rfl⟩⟩
  · exact ⟨_, ht, rfl, by rw [if_neg hz, if_pos hov]; exact ⟨rfl, rfl⟩⟩
  · exact ⟨t, ht, hend.divisor, by
      rw [if_neg hz, if_neg hov, hend.label]; exact ⟨rfl, hend.quotient, hend.remainder⟩⟩

/-- Settles O47: the cycles of each of the three ends are the branch of `costU` that its condition selects. -/
theorem unsignedDivisionCost : Obligations.UnsignedDivisionCost := by
  intro s hd
  obtain ⟨t, ht, hcase⟩ := invoke_unsigned_cases hd
  refine ⟨t, ht, ?_⟩
  rw [costU, s.dividend_div]
  rcases hcase with ⟨hz, rfl⟩ | ⟨hz, hov, rfl⟩ | ⟨hz, hov, hend⟩
  · rw [if_pos hz]; rfl
  · rw [if_neg hz, if_pos hov]; rfl
  · rw [if_neg hz, if_neg hov, hend.cycles, s.dividend_div]

/-- What the sixteenth step forms (R117, R120). -/
theorem shiftedAt_zero (n d : Nat) : shiftedAt n d 0 = lastShifted n d := by
  simp [shiftedAt, lastShifted, bitOf]

/-- A sixteenth step that is not forced stashes what it forms (R120). -/
theorem StashedByLastTrial.last {n d : Nat} {entry stash : Word} (h : StashedByLastTrial n d 0 entry stash)
    (hlt : lastShifted n d < 65536) : stash.toNat = lastShifted n d := by
  rw [← shiftedAt_zero] at hlt ⊢
  exact h.1 0 (Nat.le_refl 0) (by decide) hlt fun j _ hj => absurd hj (Nat.not_lt_zero j)

/-- Settles O48: the registers of each of the three ends. -/
theorem unsignedEndState : Obligations.UnsignedEndState := by
  intro s hd
  obtain ⟨t, ht, ⟨hz, rfl⟩ | ⟨hz, hov, rfl⟩ | ⟨hz, hov, hend⟩⟩ := invoke_unsigned_cases hd
  · exact ⟨_, ht, rfl, rfl, rfl, by rw [if_pos (.inl hz), if_pos hz]; exact ⟨rfl, rfl, rfl, rfl, rfl⟩⟩
  · exact ⟨_, ht, rfl, rfl, rfl, by rw [if_pos (.inr hov), if_neg hz]; exact ⟨rfl, rfl, rfl, rfl, rfl⟩⟩
  · exact ⟨t, ht, hend.divisor, hend.pc_scratch, hend.alu_buf, by
      rw [if_neg (not_or_intro hz hov)]
      exact ⟨hend.alu_ext, hend.addr_hi, hend.counter, hend.flags, hend.alu, hend.addr_lo.last, hend.addr_lo⟩⟩

/-- An unsigned invocation that ends in `T_NEXT` has the normal end. -/
theorem unsignedNormalEnd_of_label (hd : s.done = true) (h : invoke 0#1 s = .next t) (ht : t.control_state = Label.tNext) :
    UnsignedNormalEnd s t := by
  obtain ⟨u, hu, hcase⟩ := invoke_unsigned_cases hd
  cases hu.symm.trans h
  rcases hcase with ⟨-, rfl⟩ | ⟨-, -, rfl⟩ | ⟨-, -, hend⟩
  · exact absurd ht (show Label.tTrap ≠ Label.tNext by decide)
  · exact absurd ht (show Label.tOvf ≠ Label.tNext by decide)
  · exact hend

/-! ## The bounds of the loops' costs (R119, R163) -/

/-- A step of the unsigned loop costs 4 to 8 cycles (R119). -/
theorem costUSteps_bounds (n d m r : Nat) : 4 * m ≤ costUSteps n d m r ∧ costUSteps n d m r ≤ 8 * m := by
  induction m generalizing r with
  | zero => exact ⟨Nat.le_refl 0, Nat.le_refl 0⟩
  | succ m ih =>
    have htaken := ih (2 * r + bitOf n (m + 1) - d)
    have hnot := ih (2 * r + bitOf n (m + 1))
    dsimp only [costUSteps]
    split_ifs <;> omega

/-- A step of the signed loop has 3 or 4 control states (R163). -/
theorem statesSSteps_bounds (n d m r : Nat) : 3 * m ≤ statesSSteps n d m r ∧ statesSSteps n d m r ≤ 4 * m := by
  induction m generalizing r with
  | zero => exact ⟨Nat.le_refl 0, Nat.le_refl 0⟩
  | succ m ih =>
    have htaken := ih (2 * r + bitOf n (m + 1) - d)
    have hnot := ih (2 * r + bitOf n (m + 1))
    dsimp only [statesSSteps]
    split <;> omega

/-- A signed step that is not taken has four control states (R163). -/
theorem statesSSteps_of_lt {n d m r : Nat} (h : 2 * r + bitOf n (m + 1) < d) :
    statesSSteps n d (m + 1) r = 4 + statesSSteps n d m (2 * r + bitOf n (m + 1)) := if_neg (Nat.not_le.mpr h)

/-- The first signed step forms `n / 32768`; a quotient below 32768 has a first bit of 0, and that step is not taken. -/
theorem le_statesSSteps_of_div_lt {n d : Nat} (hd : 0 < d) (hq : n / d < 32768) :
    46 ≤ statesSSteps n d 15 (n / 65536) := by
  have hfirst : 2 * (n / 65536) + bitOf n 15 < d := by
    rw [Nat.div_lt_iff_lt_mul hd] at hq
    simp only [bitOf]
    omega
  obtain ⟨hrest, -⟩ := statesSSteps_bounds n d 14 (2 * (n / 65536) + bitOf n 15)
  have hstep : statesSSteps n d 15 (n / 65536) = 4 + statesSSteps n d 14 (2 * (n / 65536) + bitOf n 15) :=
    statesSSteps_of_lt hfirst
  omega

/-! ## The ends of a signed invocation, as far as its cycles need them (R130 to R163) -/

/-- The state `u` in which the signed engine, with the operands of `s`, begins the fix-up of the signs, `j` control states after
the entry label: quotient and remainder of the absolute values, and what the finish leaves (R146 to R149, R163). -/
structure SignedFixupStart (s u : State) (j : Nat) : Prop where
  states : j = (if s.dividend.toInt < 0 then 7 else 6) +
    statesSSteps s.dividend.toInt.natAbs s.divisor.toInt.natAbs 15 (s.dividend.toInt.natAbs / 65536) + 5
  label : u.control_state = if s.divisor.msb then Label.dvsxn1 else Label.dvsxp1
  cycles : u.cycles = s.cycles + 2 * j
  quotient : u.alu_ext.toNat = s.dividend.toInt.natAbs / s.divisor.toInt.natAbs
  remainder : u.addr_hi.toNat = s.dividend.toInt.natAbs % s.divisor.toInt.natAbs
  flags : u.flags = testFlags (subFlags (BitVec.ofNat 16 (lastShifted s.dividend.toInt.natAbs s.divisor.toInt.natAbs))
    u.alu_buf) s.dividend_hi
  alu : u.alu = BitVec.ofNat 16
    (2 * (lastShifted s.dividend.toInt.natAbs s.divisor.toInt.natAbs + 65536 - s.divisor.toInt.natAbs))
  alu_buf : u.alu_buf.toNat = s.divisor.toInt.natAbs
  counter : u.counter = 0#32
  dividend_hi : u.dividend_hi = s.dividend_hi
  dividend_lo : u.dividend_lo = s.dividend_lo
  divisor : u.divisor = s.divisor
  pc_scratch : u.pc_scratch = s.pc_scratch

/-- The high half of the working pair, as a number. -/
theorem alu_toNat_of_workingPair {n : Nat} (h : s.workingPair.toNat = n) : s.alu.toNat = n / 65536 := by
  have hlo := s.alu_ext.isLt
  rw [← h, State.workingPair, pair_toNat]
  omega

/-- Two runs, one after the other. -/
theorem run_trans {i j : Nat} (h : ∀ k, runToTerminal (k + i) s = runToTerminal k u)
    (h' : ∀ k, runToTerminal (k + j) u = runToTerminal k t) (k : Nat) :
    runToTerminal (k + (j + i)) s = runToTerminal k t := by
  rw [← Nat.add_assoc, h, h']

/-- The early test passed: setup, loop and finish of the signed engine. -/
theorem run_signedToFixup (h : s.control_state = Label.dvs1)
    (hlt : s.dividend.toInt.natAbs / 65536 < s.divisor.toInt.natAbs) :
    ∃ (j : Nat) (u : State), (∀ k, runToTerminal (k + j) s = runToTerminal k u) ∧ SignedFixupStart s u j := by
  have hz : s.divisor.toNat ≠ 0 := fun hz => by
    rw [(toInt_eq_zero_iff _).mpr hz] at hlt
    exact Nat.not_lt_zero _ hlt
  obtain ⟨i, v, hi, hrun, hlab, hpair, hbuf, -, hcnt, hcyc, hhi, hlo, hdv, hpc, -⟩ := run_signedSetup h hz
  have htop := alu_toNat_of_workingPair hpair
  have hle := natAbs_toInt_le s.divisor
  have hlt' : v.alu.toNat < v.alu_buf.toNat := by rwa [htop, hbuf]
  rw [if_pos hlt'] at hlab
  have hstart := LoopAt.start hcnt hbuf (htop ▸ hlt)
  rw [hpair] at hstart
  obtain ⟨j, w, b, Q, r, lo, hj, hrun', hat, hlab', hcyc', hcost, hframe⟩ := signed_loop hle 15 hstart hlab
  obtain ⟨hlast, -⟩ := hat.last
  obtain ⟨hmsb, -⟩ := hat.signed_shifted hle
  have hwdv : w.divisor = s.divisor := hframe.divisor.trans hdv
  have hwhi : w.dividend_hi = s.dividend_hi := hframe.dividend_hi.trans hhi
  refine ⟨5 + j + i, _, run_trans hrun (run_trans hrun' (run_signedFinish hlab' hlast hmsb)), ?_, ?_, ?_,
    hat.collectedQuotient_toNat, hat.collectedRemainder_toNat, ?_, hat.collectedAlu_eq, hat.buf, rfl, hwhi,
    hframe.dividend_lo.trans hlo, hwdv, hframe.pc_scratch.trans hpc⟩
  · rw [← htop, ← hcost, ← hi]
    omega
  · dsimp only; rw [hwdv]
  · dsimp only; omega
  · dsimp only; rw [hat.shiftedAlu_last, hwhi]

/-- The fix-up: three control states in quadrant (+,+), which ends in `Normal` only with a quotient below 32768, and four in each
other quadrant (R150 to R159, R163). -/
theorem run_signedFixup (h : u.control_state = if b then Label.dvsxn1 else Label.dvsxp1) :
    ∃ t, runToTerminal 4 u = .next t ∧ t.done = true ∧
      t.cycles = u.cycles + (if b = false ∧ u.flags.n = false then 6 else 8) ∧
      (b = false → u.flags.n = false → t.control_state = Label.tNext → u.alu_ext.toNat < 32768) := by
  cases b <;> cases hn : u.flags.n
  · refine ⟨_, run_signedPlusPlus h hn 1, ite_terminal _ rfl rfl, rfl, fun _ _ hnext => ?_⟩
    dsimp only at hnext
    rw [msb_eq_decide_le] at hnext
    by_contra hge
    rw [if_pos (by simpa using hge)] at hnext
    exact absurd hnext (by decide)
  · exact ⟨_, run_signedPlusMinus h hn 0, ite_terminal _ rfl rfl, rfl, by simp⟩
  · exact ⟨_, run_signedMinusPlus h hn 0, ite_terminal _ rfl rfl, rfl, by simp⟩
  · exact ⟨_, run_signedMinusMinus h hn 0, ite_terminal _ rfl rfl, rfl, by simp⟩

theorem invoke_signed_zero (hd : s.done = true) (hz : s.divisor.toNat = 0) :
    invoke 1#1 s = .next { s with
      alu_buf := s.divisor, alu := s.dividend_hi, alu_ext := s.dividend_lo, flags := subFlags 0#16 s.divisor,
      control_state := Label.tTrap, cycles := s.cycles + 4 } :=
  invoke_of_run (k := 0 + 2) hd (run_signedDivisionByZero (s := { s with control_state := entryLabel 1#1 }) rfl hz 0) rfl
    (by decide)

theorem invoke_signed_earlyOverflow (hd : s.done = true) (hz : s.divisor.toNat ≠ 0)
    (hov : s.divisor.toInt.natAbs ≤ s.dividend.toInt.natAbs / 65536) :
    ∃ t, invoke 1#1 s = .next t ∧ t.control_state = Label.tOvf := by
  obtain ⟨j, u, hj, hrun, hlab, hpair, hbuf, -⟩ :=
    run_signedSetup (s := { s with control_state := entryLabel 1#1 }) rfl hz
  have htop := alu_toNat_of_workingPair hpair
  rw [if_neg (by rw [htop, hbuf]; exact Nat.not_lt.mpr hov)] at hlab
  have hj7 : j ≤ 7 := by rw [hj]; split <;> omega
  exact ⟨_, invoke_of_run hd ((hrun 2).trans (run_signedEarlyOverflow hlab 0)) rfl (by rw [maxStates]; omega), rfl⟩

/-- A signed invocation that ends in `Normal` has passed the two early exits (R132, R138). -/
theorem signedNormal_passes_earlyTest (hd : s.done = true) (h : invoke 1#1 s = .next t)
    (ht : t.control_state = Label.tNext) : s.dividend.toInt.natAbs / 65536 < s.divisor.toInt.natAbs := by
  by_contra hov
  by_cases hz : s.divisor.toNat = 0
  · cases (invoke_signed_zero hd hz).symm.trans h
    exact absurd ht (show Label.tTrap ≠ Label.tNext by decide)
  · obtain ⟨u, hu, hlab⟩ := invoke_signed_earlyOverflow hd hz (Nat.not_lt.mp hov)
    cases hu.symm.trans h
    exact absurd (hlab.symm.trans ht) (by decide)

/-! ## The cycles of normal completion (R211) -/

/-- The cycles of a signed run that passes the early test and ends in `Normal`: 56 to 72 control states up to the fix-up and four
in it or, in quadrant (+,+), three in it and at least 57 before, as the first quotient bit is 0 (R163, R211). -/
theorem signedRun_cycles_bounds (h : s.control_state = Label.dvs1)
    (hlt : s.dividend.toInt.natAbs / 65536 < s.divisor.toInt.natAbs) (hend : runToTerminal maxStates s = .next t)
    (ht : t.control_state = Label.tNext) : s.cycles + 120 ≤ t.cycles ∧ t.cycles ≤ s.cycles + 152 := by
  obtain ⟨j, u, hrun, hu⟩ := run_signedToFixup h hlt
  obtain ⟨v, hv, hvd, hcyc, hquot⟩ := run_signedFixup hu.label
  have hsteps := statesSSteps_bounds s.dividend.toInt.natAbs s.divisor.toInt.natAbs 15 (s.dividend.toInt.natAbs / 65536)
  have hstates := hu.states
  have hbefore := hu.cycles
  have hj : 56 ≤ j ∧ j ≤ 72 := by split at hstates <;> omega
  cases (runToTerminal_of_le ((hrun 4).trans hv) hvd (by rw [maxStates]; omega)).symm.trans hend
  split at hcyc
  case isTrue hplus =>
    obtain ⟨hdivisor, hdividend⟩ := hplus
    have hfirst := le_statesSSteps_of_div_lt (Nat.zero_lt_of_lt hlt) (hu.quotient ▸ hquot hdivisor hdividend ht)
    have hj57 : 57 ≤ j := by split at hstates <;> omega
    omega
  case isFalse => omega

/-- The cycles of a signed invocation that ends in `Normal` (R163, R211). -/
theorem signedNormal_cycles_bounds (hd : s.done = true) (h : invoke 1#1 s = .next t) (ht : t.control_state = Label.tNext) :
    s.cycles + 120 ≤ t.cycles ∧ t.cycles ≤ s.cycles + 152 := by
  have hlt := signedNormal_passes_earlyTest hd h ht
  rw [invoke_of_done 1#1 hd] at h
  exact signedRun_cycles_bounds (s := { s with control_state := entryLabel 1#1 }) rfl hlt h ht

/-- The cycles of an unsigned invocation that ends in `Normal` (R119, R211). -/
theorem UnsignedNormalEnd.cycles_bounds (h : UnsignedNormalEnd s t) :
    s.cycles + 74 ≤ t.cycles ∧ t.cycles ≤ s.cycles + 134 := by
  have hsteps := costUSteps_bounds s.dividend.toNat s.divisor.toNat 15 (s.dividend.toNat / 65536)
  have hcycles := h.cycles
  omega

/-- Settles O55: the loop of either engine has fifteen steps with bounds of their own; the rest of a normal run is fixed but for
the signs. -/
theorem normalCompletionCostsWithinBounds : Obligations.NormalCompletionCostsWithinBounds := by
  intro s t op hd h ht
  have hlabel : t.control_state = Label.tNext := (outcomeOf_eq_some_iff _ _).mp ht
  rcases BitVec.eq_zero_or_eq_one op with rfl | rfl
  · exact (unsignedNormalEnd_of_label hd h hlabel).cycles_bounds
  · exact signedNormal_cycles_bounds hd h hlabel

/-! ## The control states (R101 to R116) -/

/-- Settles O20: the next states of the setup and the pretest; the rule of `DVU3` asks for C clear, the meaning for C set. -/
theorem unsignedSetupAndPretestStates : Obligations.UnsignedSetupAndPretestStates := by
  intro s
  simp only [← Bool.not_eq_true, ite_not]
  exact ⟨execDvu1_eq s, execDvu2_eq s, execDvu3_eq s⟩

/-- Settles O21: the two idle states. -/
theorem unsignedOverflowExitStates : Obligations.UnsignedOverflowExitStates := fun s =>
  ⟨execDvuo1_eq s, execDvuo2_eq s⟩

/-- The counter as a number in the choice of the sixteenth step (R18). -/
theorem toNat_eq_one_iff (v : Long) : v.toNat = 1 ↔ v = 1#32 := by
  rw [BitVec.toNat_eq]
  rfl

/-- Settles O22: the two shift states, the bit that leaves the top as bit 15 and the counter as a number. -/
theorem unsignedShiftStates : Obligations.UnsignedShiftStates := by
  rintro s _ rfl
  simp only [← msb_eq_bit15, toNat_eq_one_iff]
  exact ⟨execDvush0_eq s, execDvush1_eq s⟩

/-- Settles O23: the subtract states, which differ in the stash and the successor. -/
theorem unsignedSubtractStates : Obligations.UnsignedSubtractStates := fun s =>
  ⟨execDvusbf_eq s, execDvusbt_eq s, execDvuf2f_eq s, execDvuf2t_eq s⟩

/-- Settles O24: the check, whose rule asks for C clear, and the restore. -/
theorem unsignedCheckAndRestoreStates : Obligations.UnsignedCheckAndRestoreStates := by
  intro s
  simp only [← Bool.not_eq_true, ite_not]
  exact ⟨execDvuchk_eq s, execDvurst_eq s⟩

/-- Settles O25: the two collects, the bit after a trial as the negated borrow, and the writeback. -/
theorem unsignedCollectAndWritebackStates : Obligations.UnsignedCollectAndWritebackStates := by
  intro s
  simp only [Bool.if_true_right, Bool.decide_eq_true, Bool.or_false]
  exact ⟨execDvuf3f_eq s, execDvuf3t_eq s, execDvuf4_eq s⟩

end Sys2Proof.Machine

/-! Proofs of the statements of `43_divide_signed.md` (O49 to O52, O54, O53, O26 to O33): the fix-up of the four quadrants as one
state; the three ends of a signed invocation, each with its whole end state or all that is known of it; the invariant behind R160;
then the control states. -/

namespace Sys2Proof.Machine

variable {s t u : State} {b c : Bool} {n d : Int} {i : Instr}

/-! ## The true quotient and remainder (R161, R162) -/

/-- The true quotient is division truncating toward zero. -/
theorem trueQuotient_eq_tdiv (n d : Int) : trueQuotient n d = n.tdiv d :=
  match n, d with
  | .ofNat a, .ofNat k => if_pos (iff_of_false (Int.natCast_nonneg a).not_gt (Int.natCast_nonneg k).not_gt)
  | .ofNat a, .negSucc k => if_neg fun h => (Int.natCast_nonneg a).not_gt (h.mpr (Int.negSucc_lt_zero k))
  | .negSucc a, .ofNat k => if_neg fun h => (Int.natCast_nonneg k).not_gt (h.mp (Int.negSucc_lt_zero a))
  | .negSucc a, .negSucc k => if_pos (iff_of_true (Int.negSucc_lt_zero a) (Int.negSucc_lt_zero k))

/-- The true remainder is the remainder of division truncating toward zero. -/
theorem trueRemainder_eq_tmod (n d : Int) : trueRemainder n d = n.tmod d :=
  match n, d with
  | .ofNat a, .ofNat _ | .ofNat a, .negSucc _ => if_neg (Int.natCast_nonneg a).not_gt
  | .negSucc a, .ofNat _ | .negSucc a, .negSucc _ => if_pos (Int.negSucc_lt_zero a)

theorem natAbs_trueQuotient (n d : Int) : (trueQuotient n d).natAbs = n.natAbs / d.natAbs := by
  rw [trueQuotient]
  split
  · exact Int.natAbs_natCast _
  · rw [Int.natAbs_neg, Int.natAbs_natCast]

/-- A divisor that the early test finds too small makes the quotient too large for a word (R137, R162). -/
theorem not_fitsWord_of_earlyTest (hd : d ≠ 0) (h : d.natAbs ≤ n.natAbs / 65536) : ¬ FitsWord (trueQuotient n d) := by
  rintro ⟨hlow, hhigh⟩
  have hq := natAbs_trueQuotient n d
  have hlarge : 65536 ≤ n.natAbs / d.natAbs := by
    rw [Nat.le_div_iff_mul_le (Int.natAbs_pos.mpr hd), Nat.mul_comm]
    exact (Nat.le_div_iff_mul_le (by decide)).mp h
  omega

/-- The true quotient by the signs of the operands, `b` of the divisor and `c` of the dividend. -/
theorem trueQuotient_of_signs (hb : b = true ↔ d < 0) (hc : c = true ↔ n < 0) :
    trueQuotient n d = if b = c then ((n.natAbs / d.natAbs : Nat) : Int) else -((n.natAbs / d.natAbs : Nat) : Int) :=
  if_congr (by rw [Bool.eq_iff_iff, hb, hc]; exact iff_comm) rfl rfl

theorem trueRemainder_of_sign (d : Int) (hc : c = true ↔ n < 0) :
    trueRemainder n d = if c then -((n.natAbs % d.natAbs : Nat) : Int) else ((n.natAbs % d.natAbs : Nat) : Int) :=
  if_congr hc.symm rfl rfl

/-! ## The fix-up, the four quadrants in one (R150 to R159) -/

/-- The quotient with the sign that the quadrant gives it (R152, R153, R155, R157): `b` is the divisor's sign, `c` the
dividend's. -/
def signedQuotient (b c : Bool) (q : Word) : Word := if b = c then q else 0#16 - q

/-- The overflow test of the quadrant (R152, R154, R156, R158). -/
def signedOverflow (b c : Bool) (q : Word) : Bool := if b = c then q.msb else (subFlags 0#16 q).positive

/-- The remainder with the dividend's sign (R154, R156). -/
def signedRemainder (c : Bool) (m : Word) : Word := if c then 0#16 - m else m

theorem signedQuotient_eq_ofInt (b c : Bool) (q : Word) :
    signedQuotient b c q = BitVec.ofInt 16 (if b = c then (q.toNat : Int) else -(q.toNat : Int)) := by
  unfold signedQuotient
  split
  · simp
  · simp [BitVec.ofInt_neg]

theorem fitsWord_iff_signedOverflow (b c : Bool) (q : Word) :
    FitsWord (if b = c then (q.toNat : Int) else -(q.toNat : Int)) ↔ signedOverflow b c q = false := by
  have hq := q.isLt
  unfold signedOverflow FitsWord
  split
  · rw [msb_eq_decide_le, decide_eq_false_iff_not]; omega
  · rw [negated_positive_iff, decide_eq_false_iff_not]; omega

theorem signedRemainder_toInt (c : Bool) {m : Word} (hm : m.toNat < 32768) :
    (signedRemainder c m).toInt = if c then -(m.toNat : Int) else (m.toNat : Int) := by
  unfold signedRemainder
  cases c
  · simp [BitVec.toInt_eq_toNat_cond]; omega
  · simp only [if_true, BitVec.toInt_eq_toNat_cond, negate_toNat]; split <;> omega

/-- What the fix-up leaves of `u`: quotient and remainder with their signs in the scratch registers, and in the dividend unless
the overflow test finds the quotient too large. -/
def State.signedFixedUp (u : State) (b c : Bool) : State := { u with
  addr_lo := signedQuotient b c u.alu_ext, addr_hi := signedRemainder c u.addr_hi,
  flags := if c then subFlags 0#16 u.addr_hi else if b then subFlags 0#16 u.alu_ext else testFlags u.flags u.alu_ext,
  dividend_hi := if signedOverflow b c u.alu_ext then u.dividend_hi else signedRemainder c u.addr_hi,
  dividend_lo := if signedOverflow b c u.alu_ext then u.dividend_lo else signedQuotient b c u.alu_ext,
  control_state := if signedOverflow b c u.alu_ext then Label.tOvf else Label.tNext,
  cycles := u.cycles + if b = false ∧ c = false then 6 else 8 }

/-- The whole state that the fix-up leaves, `c` being N as the test of the dividend left it (R149 to R159). -/
theorem run_signedFixup_eq (h : u.control_state = if b then Label.dvsxn1 else Label.dvsxp1) (hc : u.flags.n = c) :
    runToTerminal 4 u = .next (u.signedFixedUp b c) := by
  cases b <;> cases c
  · exact run_signedPlusPlus h hc 1
  · exact run_signedPlusMinus h hc 0
  · exact run_signedMinusPlus h hc 0
  · exact run_signedMinusMinus h hc 0

/-! ## The three ends of a signed invocation (R130, R161 to R164) -/

/-- The end by `DivisionByZero` (R132, R164). -/
def State.signedZeroEnd (s : State) : State := { s with
  alu_buf := s.divisor, alu := s.dividend_hi, alu_ext := s.dividend_lo, flags := subFlags 0#16 s.divisor,
  control_state := Label.tTrap, cycles := s.cycles + 4 }

/-- The end `t` by `Overflow` of the early test, of the signed invocation from `s` (R137 to R140, R164). -/
structure SignedEarlyEnd (s t : State) : Prop where
  label : t.control_state = Label.tOvf
  cycles : t.cycles = s.cycles + 2 * ((if s.dividend.toInt < 0 then 7 else 6) + 2)
  workingPair : t.workingPair.toNat = s.dividend.toInt.natAbs
  alu_buf : t.alu_buf.toNat = s.divisor.toInt.natAbs
  flags : t.flags = subFlags t.alu t.alu_buf
  counter : t.counter = 16#32
  addr_hi : t.addr_hi = s.addr_hi
  addr_lo : t.addr_lo = s.addr_lo
  dividend : t.dividend = s.dividend
  divisor : t.divisor = s.divisor
  pc_scratch : t.pc_scratch = s.pc_scratch

/-- The end `t`, by `Normal` or by `Overflow` of the fix-up, of the signed invocation from `s` that passes the early test (R150
to R164). -/
structure SignedLateEnd (s t : State) : Prop where
  normal : FitsWord (trueQuotient s.dividend.toInt s.divisor.toInt) →
    t.control_state = Label.tNext ∧ t.dividend_hi = t.addr_hi ∧ t.dividend_lo = t.addr_lo
  overflow : ¬ FitsWord (trueQuotient s.dividend.toInt s.divisor.toInt) →
    t.control_state = Label.tOvf ∧ t.dividend = s.dividend
  cycles : t.cycles = s.cycles + 2 * ((if s.dividend.toInt < 0 then 7 else 6) +
    statesSSteps s.dividend.toInt.natAbs s.divisor.toInt.natAbs 15 (s.dividend.toInt.natAbs / 65536) + 5 +
    (if 0 < s.divisor.toInt ∧ 0 ≤ s.dividend.toInt then 3 else 4))
  alu_buf : t.alu_buf.toNat = s.divisor.toInt.natAbs
  alu_ext : t.alu_ext.toNat = s.dividend.toInt.natAbs / s.divisor.toInt.natAbs
  counter : t.counter = 0#32
  alu : t.alu = BitVec.ofNat 16
    (2 * (lastShifted s.dividend.toInt.natAbs s.divisor.toInt.natAbs + 65536 - s.divisor.toInt.natAbs))
  addr_hi : t.addr_hi.toInt = trueRemainder s.dividend.toInt s.divisor.toInt
  addr_lo : t.addr_lo = BitVec.ofInt 16 (trueQuotient s.dividend.toInt s.divisor.toInt)
  flags : t.flags =
    if s.dividend.toInt < 0 then subFlags 0 (0 - t.addr_hi)
    else if s.divisor.toInt < 0 then subFlags 0 t.alu_ext
    else testFlags (subFlags (BitVec.ofNat 16 (lastShifted s.dividend.toInt.natAbs s.divisor.toInt.natAbs))
      t.alu_buf) t.alu_ext
  divisor : t.divisor = s.divisor
  pc_scratch : t.pc_scratch = s.pc_scratch

theorem divisor_msb_iff (s : State) : s.divisor.msb = true ↔ s.divisor.toInt < 0 := by
  rw [msb_eq_decide_neg, decide_eq_true_eq]

theorem dividend_hi_msb_iff (s : State) : s.dividend_hi.msb = true ↔ s.dividend.toInt < 0 :=
  (pair_toInt_neg_iff _ _).symm

/-- The cycles at the end: the fix-up has three control states in quadrant (+,+) and four in each other (R163). -/
theorem SignedFixupStart.fixedUp_cycles {j : Nat} (hu : SignedFixupStart s u j) (hd : s.divisor.toInt ≠ 0) :
    (u.signedFixedUp s.divisor.msb s.dividend_hi.msb).cycles = s.cycles + 2 * ((if s.dividend.toInt < 0 then 7 else 6) +
      statesSSteps s.dividend.toInt.natAbs s.divisor.toInt.natAbs 15 (s.dividend.toInt.natAbs / 65536) + 5 +
      (if 0 < s.divisor.toInt ∧ 0 ≤ s.dividend.toInt then 3 else 4)) := by
  have hplus : (s.divisor.msb = false ∧ s.dividend_hi.msb = false) ↔ (0 < s.divisor.toInt ∧ 0 ≤ s.dividend.toInt) := by
    rw [← Bool.not_eq_true, ← Bool.not_eq_true, divisor_msb_iff, dividend_hi_msb_iff]
    omega
  have hfixed : (u.signedFixedUp s.divisor.msb s.dividend_hi.msb).cycles =
      u.cycles + if 0 < s.divisor.toInt ∧ 0 ≤ s.dividend.toInt then 6 else 8 :=
    congrArg (u.cycles + ·) (if_congr hplus rfl rfl)
  rw [hfixed, hu.cycles, hu.states]
  split_ifs <;> omega

/-- The flags of the quadrant's last flag-writing state (R164). -/
theorem SignedFixupStart.fixedUp_flags {j : Nat} (hu : SignedFixupStart s u j) :
    (u.signedFixedUp s.divisor.msb s.dividend_hi.msb).flags =
      if s.dividend.toInt < 0 then subFlags 0 (0 - signedRemainder s.dividend_hi.msb u.addr_hi)
      else if s.divisor.toInt < 0 then subFlags 0 u.alu_ext
      else testFlags (subFlags (BitVec.ofNat 16 (lastShifted s.dividend.toInt.natAbs s.divisor.toInt.natAbs))
        u.alu_buf) u.alu_ext := by
  simp only [State.signedFixedUp, hu.flags, divisor_msb_iff, dividend_hi_msb_iff]
  refine if_ctx_congr Iff.rfl (fun hneg => ?_) fun _ => rfl
  rw [signedRemainder, if_pos ((dividend_hi_msb_iff s).mpr hneg)]
  exact congrArg _ (sub_sub_cancel _ _).symm

/-- The fix-up of a run that passed the early test ends it. -/
theorem SignedFixupStart.lateEnd {j : Nat} (hu : SignedFixupStart s u j)
    (hlt : s.dividend.toInt.natAbs / 65536 < s.divisor.toInt.natAbs) :
    SignedLateEnd s (u.signedFixedUp s.divisor.msb s.dividend_hi.msb) := by
  have hq := trueQuotient_of_signs (divisor_msb_iff s) (dividend_hi_msb_iff s)
  have hr := trueRemainder_of_sign s.divisor.toInt (dividend_hi_msb_iff s)
  rw [← hu.quotient] at hq
  rw [← hu.remainder] at hr
  have hfits := fitsWord_iff_signedOverflow s.divisor.msb s.dividend_hi.msb u.alu_ext
  rw [← hq] at hfits
  have hrem : u.addr_hi.toNat < 32768 := by
    rw [hu.remainder]
    exact (Nat.mod_lt _ (Nat.zero_lt_of_lt hlt)).trans_le (natAbs_toInt_le _)
  have hd : s.divisor.toInt ≠ 0 := Int.natAbs_pos.mp (Nat.zero_lt_of_lt hlt)
  refine ⟨fun hf => ?_, fun hf => ?_, hu.fixedUp_cycles hd, hu.alu_buf, hu.quotient, hu.counter, hu.alu,
    (signedRemainder_toInt _ hrem).trans hr.symm, (signedQuotient_eq_ofInt _ _ _).trans (congrArg _ hq.symm),
    hu.fixedUp_flags, hu.divisor, hu.pc_scratch⟩
  · rw [State.signedFixedUp, hfits.mp hf]
    exact ⟨rfl, rfl, rfl⟩
  · rw [hfits, Bool.not_eq_false] at hf
    rw [State.signedFixedUp, hf, State.dividend, State.dividend, ← hu.dividend_hi, ← hu.dividend_lo]
    exact ⟨rfl, rfl⟩

/-- The fix-up's start does not depend on the label at entry. -/
theorem SignedFixupStart.of_label {l : LabelCode} {j : Nat} (h : SignedFixupStart { s with control_state := l } u j) :
    SignedFixupStart s u j :=
  ⟨h.states, h.label, h.cycles, h.quotient, h.remainder, h.flags, h.alu, h.alu_buf, h.counter, h.dividend_hi, h.dividend_lo,
    h.divisor, h.pc_scratch⟩

/-- The early test found an overflow: setup and overflow exit of the signed engine (R131 to R140). -/
theorem invoke_signed_early (hd : s.done = true) (hz : s.divisor.toNat ≠ 0)
    (hov : s.divisor.toInt.natAbs ≤ s.dividend.toInt.natAbs / 65536) :
    ∃ t, invoke 1#1 s = .next t ∧ SignedEarlyEnd s t := by
  obtain ⟨j, u, hj, hrun, hlab, hpair, hbuf, hflags, hcnt, hcyc, hhi, hlo, hdv, hpc, hahi, halo, -⟩ :=
    run_signedSetup (s := { s with control_state := entryLabel 1#1 }) rfl hz
  have htop := alu_toNat_of_workingPair hpair
  rw [if_neg (by rw [htop, hbuf]; exact Nat.not_lt.mpr hov)] at hlab
  have hj7 : j ≤ 7 := by rw [hj]; split <;> omega
  refine ⟨_, invoke_of_run hd ((hrun 2).trans (run_signedEarlyOverflow hlab 0)) rfl (by rw [maxStates]; omega), rfl, ?_,
    hpair, hbuf, hflags, hcnt, hahi, halo, congrArg₂ pair hhi hlo, hdv, hpc⟩
  rw [hj] at hcyc
  dsimp only at hcyc ⊢
  rw [hcyc]
  exact Nat.add_assoc _ _ _

/-- The early test passed: the run to the fix-up, and the fix-up. -/
theorem invoke_signed_late (hd : s.done = true) (hlt : s.dividend.toInt.natAbs / 65536 < s.divisor.toInt.natAbs) :
    ∃ t, invoke 1#1 s = .next t ∧ SignedLateEnd s t := by
  obtain ⟨j, u, hrun, hu⟩ := run_signedToFixup (s := { s with control_state := entryLabel 1#1 }) rfl hlt
  have hsteps := statesSSteps_bounds s.dividend.toInt.natAbs s.divisor.toInt.natAbs 15 (s.dividend.toInt.natAbs / 65536)
  have hu' := hu.of_label
  have hj : j ≤ 72 := by rw [hu'.states]; split <;> omega
  have hn : u.flags.n = s.dividend_hi.msb := by rw [hu'.flags, msb_eq_decide_le]; rfl
  have hterm : (u.signedFixedUp s.divisor.msb s.dividend_hi.msb).done = true := ite_terminal _ rfl rfl
  exact ⟨_, invoke_of_run hd ((hrun 4).trans (run_signedFixup_eq hu.label hn)) hterm (by rw [maxStates]; omega),
    hu'.lateEnd hlt⟩

/-- Every signed invocation comes to one of its three ends, division by zero before the early overflow (R130). -/
theorem invoke_signed_cases (hd : s.done = true) : ∃ t, invoke 1#1 s = .next t ∧
    ((s.divisor.toInt = 0 ∧ t = s.signedZeroEnd) ∨
      (s.divisor.toInt ≠ 0 ∧ s.divisor.toInt.natAbs ≤ s.dividend.toInt.natAbs / 65536 ∧ SignedEarlyEnd s t) ∨
      (s.divisor.toInt ≠ 0 ∧ ¬ s.divisor.toInt.natAbs ≤ s.dividend.toInt.natAbs / 65536 ∧ SignedLateEnd s t)) := by
  by_cases hz : s.divisor.toInt = 0
  · exact ⟨_, invoke_signed_zero hd ((toInt_eq_zero_iff _).mp hz), .inl ⟨hz, rfl⟩⟩
  by_cases hov : s.divisor.toInt.natAbs ≤ s.dividend.toInt.natAbs / 65536
  · obtain ⟨t, ht, hend⟩ := invoke_signed_early hd (fun h => hz ((toInt_eq_zero_iff _).mpr h)) hov
    exact ⟨t, ht, .inr (.inl ⟨hz, hov, hend⟩)⟩
  · obtain ⟨t, ht, hend⟩ := invoke_signed_late hd (Nat.not_le.mp hov)
    exact ⟨t, ht, .inr (.inr ⟨hz, hov, hend⟩)⟩

/-! ## Result, cost and end state -/

/-- A word that holds a quotient that fits is that quotient (R162). -/
theorem toInt_ofInt_of_fitsWord {q : Int} (h : FitsWord q) : (BitVec.ofInt 16 q).toInt = q := by
  obtain ⟨hlow, hhigh⟩ := h
  exact BitVec.toInt_ofInt_eq_self (by decide) hlow (by omega)

/-- The dividend registers after `Normal` (R161). -/
theorem SignedLateEnd.result (h : SignedLateEnd s t) (hf : FitsWord (trueQuotient s.dividend.toInt s.divisor.toInt)) :
    t.dividend_lo.toInt = trueQuotient s.dividend.toInt s.divisor.toInt ∧
      t.dividend_hi.toInt = trueRemainder s.dividend.toInt s.divisor.toInt := by
  obtain ⟨-, hhi, hlo⟩ := h.normal hf
  rw [hhi, hlo, h.addr_lo]
  exact ⟨toInt_ofInt_of_fitsWord hf, h.addr_hi⟩

/-- Settles O49: an early overflow has a true quotient that does not fit, and the fix-up tests whether it does. -/
theorem signedDivisionResult : Obligations.SignedDivisionResult := by
  intro s hd
  obtain ⟨t, ht, ⟨hz, rfl⟩ | ⟨hz, hov, hend⟩ | ⟨hz, hov, hend⟩⟩ := invoke_signed_cases hd
  · exact ⟨_, ht, rfl, fun _ => ⟨rfl, rfl⟩, fun h => absurd hz h, fun h => absurd hz h⟩
  · exact ⟨t, ht, hend.divisor, fun h => absurd h hz, fun _ _ => ⟨by rw [hend.label]; rfl, hend.dividend⟩,
      fun _ hf => absurd hf (not_fitsWord_of_earlyTest hz hov)⟩
  · refine ⟨t, ht, hend.divisor, fun h => absurd h hz, fun _ hf => ?_, fun _ hf => ?_⟩
    · obtain ⟨hlabel, hdividend⟩ := hend.overflow hf
      exact ⟨by rw [hlabel]; rfl, hdividend⟩
    · obtain ⟨hlabel, -⟩ := hend.normal hf
      exact ⟨by rw [hlabel]; rfl, hend.result hf⟩

/-- Settles O50: a `Normal` end holds the true quotient and remainder (O49), which are those of `Int.tdiv` and `Int.tmod`. -/
theorem signedResultTruncatesTowardZero : Obligations.SignedResultTruncatesTowardZero := by
  intro s t hd hz h hnormal
  obtain ⟨u, hu, -, -, hover, hfit⟩ := signedDivisionResult s hd
  cases hu.symm.trans h
  have hf : FitsWord (trueQuotient s.dividend.toInt s.divisor.toInt) := by
    by_contra hf
    obtain ⟨hlabel, -⟩ := hover hz hf
    rw [hlabel] at hnormal
    cases hnormal
  obtain ⟨-, hq, hm⟩ := hfit hz hf
  rw [hq, hm, trueQuotient_eq_tdiv, trueRemainder_eq_tmod]
  refine ⟨(Int.tdiv_mul_add_tmod _ _).symm, ?_, ?_⟩
  · rw [Int.natAbs_tmod]
    exact Nat.mod_lt _ (Int.natAbs_pos.mpr hz)
  · have hsign := Int.sign_tmod s.dividend.toInt s.divisor.toInt
    split at hsign
    · exact .inl (Int.sign_eq_zero_iff_zero.mp hsign)
    · exact .inr (by rw [← Int.sign_neg_iff, hsign, Int.sign_neg_iff])

/-! ### `costS` by its branches (R163) -/

theorem costS_of_earlyTest (hd : d ≠ 0) (h : d.natAbs ≤ n.natAbs / 65536) :
    costS n d = 2 * ((if n < 0 then 7 else 6) + 2) := by
  rw [costS, if_neg hd, if_pos h]
  split <;> rfl

theorem costS_of_not_earlyTest (hd : d ≠ 0) (h : ¬ d.natAbs ≤ n.natAbs / 65536) :
    costS n d = 2 * ((if n < 0 then 7 else 6) + statesSSteps n.natAbs d.natAbs 15 (n.natAbs / 65536) + 5 +
      (if 0 < d ∧ 0 ≤ n then 3 else 4)) := by
  rw [costS, if_neg hd, if_neg h]
  split <;> rfl

/-- Settles O51: the cycles of each of the three ends are the branch of `costS` that its condition selects. -/
theorem signedDivisionCost : Obligations.SignedDivisionCost := by
  intro s hd
  obtain ⟨t, ht, hcase⟩ := invoke_signed_cases hd
  refine ⟨t, ht, ?_⟩
  rcases hcase with ⟨hz, rfl⟩ | ⟨hz, hov, hend⟩ | ⟨hz, hov, hend⟩
  · rw [costS, if_pos hz]; rfl
  · rw [costS_of_earlyTest hz hov, hend.cycles]
  · rw [costS_of_not_earlyTest hz hov, hend.cycles]

/-- Settles O52: the registers of each of the three ends. -/
theorem signedEndState : Obligations.SignedEndState := by
  intro s hd
  obtain ⟨t, ht, ⟨hz, rfl⟩ | ⟨hz, hov, hend⟩ | ⟨hz, hov, hend⟩⟩ := invoke_signed_cases hd
  · have hflags : subFlags 0#16 s.divisor = ⟨false, false, true, false, false⟩ := by
      rw [BitVec.eq_of_toInt_eq (y := 0#16) hz]; rfl
    exact ⟨_, ht, rfl, rfl, by rw [hz]; exact (toInt_eq_zero_iff _).mp hz, by
      rw [if_pos hz]; exact ⟨rfl, rfl, rfl, rfl, hflags⟩⟩
  · exact ⟨t, ht, hend.divisor, hend.pc_scratch, hend.alu_buf, by
      rw [if_neg hz, if_pos hov]
      exact ⟨hend.workingPair, hend.counter, hend.addr_hi, hend.addr_lo, hend.flags⟩⟩
  · exact ⟨t, ht, hend.divisor, hend.pc_scratch, hend.alu_buf, by
      rw [if_neg hz, if_neg hov]
      exact ⟨hend.alu_ext, hend.counter, hend.alu, hend.addr_hi, hend.addr_lo, hend.flags⟩⟩

/-- Settles O54: the high half of `2^31` is 32768, which no absolute divisor exceeds, so that the end is the early one. -/
theorem mostNegativeDividendOverflowsEarly : Obligations.MostNegativeDividendOverflowsEarly := by
  intro s hd hn hz
  have hd0 : s.divisor.toNat ≠ 0 := fun h => hz (BitVec.eq_of_toNat_eq h)
  have hov : s.divisor.toInt.natAbs ≤ s.dividend.toInt.natAbs / 65536 := by
    rw [hn]
    exact natAbs_toInt_le s.divisor
  obtain ⟨t, ht, hend⟩ := invoke_signed_early hd hd0 hov
  refine ⟨t, ht, by rw [hend.label]; rfl, hend.dividend, ?_⟩
  rw [hend.cycles, hn]
  rfl

/-! ## No signed shift drops a bit (R160) -/

/-- What is preserved by every step of a running block holds at the end of every run, whatever its fuel. -/
theorem runToTerminal_invariant {P : State → Prop} (hstep : ∀ s t, s.done = false → P s → step s = .next t → P t)
    (k : Nat) (hs : P s) (h : runToTerminal k s = .next t) : P t := by
  induction k generalizing s with
  | zero => cases h; exact hs
  | succ k ih =>
    cases hd : s.done with
    | true => rw [runToTerminal_done hd] at h; cases h; exact hs
    | false =>
      cases hu : step s with
      | next u => rw [runToTerminal_step hd hu] at h; exact ih (hstep s u hd hs hu) h
      | fault f => simp [runToTerminal, hd, hu] at h
      | refused f => simp [runToTerminal, hd, hu] at h

/-- What holds at the label of a signed invocation that selects an instruction, as far as the shifts need it: `alu_buf` is an
absolute divisor from `DVSP0` on, `alu` is below it at a shift and below twice it at the trial, and C is the borrow of the last
compare. After the loop and at a terminal label nothing is needed; an invocation holds none of the other labels. -/
def ShiftFacts (s : State) : Instr → Prop
  | .dvs2 => s.flags.n = s.alu_buf.msb
  | .dvsp0 | .dvsn1 | .dvsn2 | .dvsa | .dvsc => s.alu_buf.toNat ≤ 32768
  | .dvsk => s.alu_buf.toNat ≤ 32768 ∧ s.flags.c = decide (s.alu.toNat < s.alu_buf.toNat)
  | .dvssh0 | .dvssh1 => s.alu_buf.toNat ≤ 32768 ∧ s.alu.toNat < s.alu_buf.toNat
  | .dvssb => s.alu_buf.toNat ≤ 32768 ∧ s.alu.toNat < 2 * s.alu_buf.toNat
  | .dvsck => s.alu_buf.toNat ≤ 32768 ∧ s.addr_lo.toNat < 2 * s.alu_buf.toNat ∧ s.alu = s.addr_lo - s.alu_buf ∧
      s.flags.c = decide (s.addr_lo.toNat < s.alu_buf.toNat)
  | .dvsrs => s.alu_buf.toNat ≤ 32768 ∧ s.addr_lo.toNat < s.alu_buf.toNat
  | .dvs1 | .dvso1 | .dvsovx | .dvsf2 | .dvsf3 | .dvsf4 | .dvsf5 | .dvsxp1 | .dvsxn1 | .dvspp2 | .dvspm2 | .dvspm3 | .dvsmm2
  | .dvsmm3 | .dvsmp2 | .dvsmp3 | .dvswb | .tNext | .tTrap | .tOvf => True
  | _ => False

/-- The label held is one of a signed invocation, and its `ShiftFacts` hold. -/
def ShiftInvariant (s : State) : Prop := ∃ i, csCode i = some s.control_state ∧ ShiftFacts s i

/-- The invariant after a choice between two labels, each with its facts. -/
theorem ShiftInvariant.of_ite {p : Prop} [Decidable p] (i j : Instr) {a b : LabelCode}
    (hl : s.control_state = if p then a else b) (hi : csCode i = some a) (hj : csCode j = some b)
    (hp : p → ShiftFacts s i) (hn : ¬ p → ShiftFacts s j) : ShiftInvariant s := by
  by_cases h : p
  · exact ⟨i, by rw [hl, if_pos h, hi], hp h⟩
  · exact ⟨j, by rw [hl, if_neg h, hj], hn h⟩

/-- The absolute divisor (R16, R132). -/
theorem abs_word_le (v : Word) : (if v.msb then 0#16 - v else v).toNat ≤ 32768 := by
  rw [abs_word_toNat]
  exact natAbs_toInt_le v

/-- A shift at most doubles `alu` and brings in one bit (R89), so that it leaves the facts of the trial. -/
theorem shiftInvariant_of_shift (h : ShiftFacts s .dvssh0)
    (hl : t.control_state = if s.counter = 1#32 then Label.dvsf2 else Label.dvssb) (halu : t.alu = shiftedAlu s)
    (hbuf : t.alu_buf = s.alu_buf) : ShiftInvariant t := by
  obtain ⟨hle, hlt⟩ := h
  have hext := s.alu_ext.isLt
  have htwice : t.alu.toNat < 2 * t.alu_buf.toNat := by
    rw [halu, hbuf, shiftedAlu_toNat]
    omega
  exact .of_ite .dvsf2 .dvssb hl rfl rfl (fun _ => trivial) fun _ => ⟨hbuf ▸ hle, htwice⟩

/-- One control state keeps the invariant. -/
theorem exec_shiftInvariant (he : isEngine i = true) (hi : ShiftFacts s i) (h : exec i s = .next t) : ShiftInvariant t := by
  cases i
  case dvs1 => cases (execDvs1_eq s).symm.trans h; exact ⟨.dvs2, rfl, (msb_eq_decide_le _).symm⟩
  case dvs2 =>
    cases (execDvs2_eq s).symm.trans h
    have hbuf : (if s.flags.n then 0#16 - s.alu_buf else s.alu_buf).toNat ≤ 32768 := hi ▸ abs_word_le s.alu_buf
    by_cases hz : s.flags.z = true
    · exact ⟨.tTrap, by dsimp only; rw [if_pos hz]; rfl, trivial⟩
    · exact .of_ite .dvsn1 .dvsp0 (if_neg hz) rfl rfl (fun _ => hbuf) fun _ => hbuf
  case dvsp0 => cases (execDvsp0_eq s).symm.trans h; exact ⟨.dvsa, rfl, hi⟩
  case dvsn1 => cases (execDvsn1_eq s).symm.trans h; exact ⟨.dvsn2, rfl, hi⟩
  case dvsn2 => cases (execDvsn2_eq s).symm.trans h; exact ⟨.dvsa, rfl, hi⟩
  case dvsa => cases (execDvsa_eq s).symm.trans h; exact ⟨.dvsc, rfl, hi⟩
  case dvsc => cases (execDvsc_eq s).symm.trans h; exact ⟨.dvsk, rfl, hi, rfl⟩
  case dvsk =>
    cases (execDvsk_eq s).symm.trans h
    obtain ⟨hbuf, hc⟩ := hi
    exact .of_ite .dvssh0 .dvso1 rfl rfl rfl (fun hp => ⟨hbuf, of_decide_eq_true (hc.symm.trans hp)⟩) fun _ => trivial
  case dvssh0 => cases (execDvssh0_eq s).symm.trans h; exact shiftInvariant_of_shift hi rfl rfl rfl
  case dvssh1 => cases (execDvssh1_eq s).symm.trans h; exact shiftInvariant_of_shift hi rfl rfl rfl
  case dvssb =>
    cases (execDvssb_eq s).symm.trans h
    obtain ⟨hbuf, hlt⟩ := hi
    exact ⟨.dvsck, rfl, hbuf, hlt, rfl, rfl⟩
  case dvsck =>
    cases (execDvsck_eq s).symm.trans h
    obtain ⟨hbuf, hlt, halu, hc⟩ := hi
    refine .of_ite .dvsrs .dvssh1 rfl rfl rfl (fun hp => ⟨hbuf, of_decide_eq_true (hc.symm.trans hp)⟩)
      fun hp => ⟨hbuf, ?_⟩
    have hge : ¬ s.addr_lo.toNat < s.alu_buf.toNat := fun hlt => hp (hc.trans (decide_eq_true hlt))
    dsimp only
    rw [halu, sub_toNat]
    omega
  case dvsrs => cases (execDvsrs_eq s).symm.trans h; exact ⟨.dvssh0, rfl, hi⟩
  case dvso1 => cases h; exact ⟨.dvsovx, rfl, trivial⟩
  case dvsovx => cases h; exact ⟨.tOvf, rfl, trivial⟩
  case dvsf2 => cases h; exact ⟨.dvsf3, rfl, trivial⟩
  case dvsf3 => cases (execDvsf3_eq s).symm.trans h; exact ⟨.dvsf4, rfl, trivial⟩
  case dvsf4 => cases h; exact ⟨.dvsf5, rfl, trivial⟩
  case dvsf5 => cases h; exact .of_ite .dvsxn1 .dvsxp1 rfl rfl rfl (fun _ => trivial) fun _ => trivial
  case dvsxp1 => cases h; exact .of_ite .dvspm2 .dvspp2 rfl rfl rfl (fun _ => trivial) fun _ => trivial
  case dvsxn1 => cases h; exact .of_ite .dvsmm2 .dvsmp2 rfl rfl rfl (fun _ => trivial) fun _ => trivial
  case dvspp2 | dvspm3 | dvsmm3 | dvsmp3 =>
    cases h
    exact .of_ite .dvsovx .dvswb rfl rfl rfl (fun _ => trivial) fun _ => trivial
  case dvspm2 => cases h; exact ⟨.dvspm3, rfl, trivial⟩
  case dvsmm2 => cases h; exact ⟨.dvsmm3, rfl, trivial⟩
  case dvsmp2 => cases h; exact ⟨.dvsmp3, rfl, trivial⟩
  case dvswb => cases h; exact ⟨.tNext, rfl, trivial⟩
  case tNext | tTrap | tOvf => exact absurd he Bool.false_ne_true
  all_goals exact hi.elim

/-- The facts of the invariant are those of the label held. -/
theorem ShiftInvariant.facts (h : ShiftInvariant s) (hi : csCode i = some s.control_state) : ShiftFacts s i := by
  obtain ⟨j, hj, hfacts⟩ := h
  cases Option.some.inj ((decodeLabel_of_csCode _ i hi).symm.trans (decodeLabel_of_csCode _ j hj))
  exact hfacts

theorem step_shiftInvariant (hd : s.done = false) (hs : ShiftInvariant s) (h : step s = .next t) : ShiftInvariant t := by
  obtain ⟨i, he, hi, hx⟩ := step_running_cases hd h
  exact exec_shiftInvariant he (hs.facts hi) hx

/-- The facts of a shift label bound `alu` below 32768 (R160). -/
theorem msb_eq_false_of_shiftFacts (h : ShiftFacts s .dvssh0) : s.alu.msb = false := by
  obtain ⟨hbuf, hlt⟩ := h
  rw [msb_eq_decide_le, decide_eq_false_iff_not]
  omega

/-- Settles O53: the invariant holds at the entry label, every step keeps it, and at a shift label it bounds `alu`. -/
theorem signedShiftNeverDropsABit : Obligations.SignedShiftNeverDropsABit := by
  intro s e t k hd he hrun hl
  cases (exec_decodeCommand 1#1 hd).symm.trans he
  have hentry : ShiftInvariant { s with control_state := entryLabel 1#1 } := ⟨.dvs1, rfl, trivial⟩
  have ht := runToTerminal_invariant (fun _ _ => step_shiftInvariant) k hentry hrun
  rw [← msb_eq_bit15]
  rcases hl with hl | hl
  · exact msb_eq_false_of_shiftFacts (ht.facts (i := .dvssh0) (by rw [hl]; rfl))
  · exact msb_eq_false_of_shiftFacts (ht.facts (i := .dvssh1) (by rw [hl]; rfl))

/-! ## The control states (R131 to R159) -/

/-- X as the number that `DVSN2` subtracts (R88, R135). -/
theorem ofBool_setWidth_eq_ite (b : Bool) : (BitVec.ofBool b).setWidth 16 = if b = true then 1#16 else 0#16 := by
  cases b <;> rfl

theorem Flags.positive_iff (f : Flags) : f.positive = true ↔ f.n = false ∧ f.z = false := by
  simp [Flags.positive]

/-- Settles O26: the next states of the setup; the rule asks for bit 15 of the dividend. -/
theorem signedSetupStates : Obligations.SignedSetupStates := by
  intro s
  simp only [← msb_eq_bit15]
  exact ⟨execDvs1_eq s, execDvs2_eq s⟩

/-- Settles O27: the next states of the absolute dividend, X as the number `DVSN2` subtracts. -/
theorem signedAbsolutizationStates : Obligations.SignedAbsolutizationStates := fun s =>
  ⟨execDvsp0_eq s, execDvsn1_eq s, ofBool_setWidth_eq_ite s.flags.x ▸ execDvsn2_eq s, execDvsa_eq s⟩

/-- Settles O28: the rule of `DVSK` asks for C clear, the meaning for C set. -/
theorem signedEarlyOverflowStates : Obligations.SignedEarlyOverflowStates := by
  intro s
  simp only [← Bool.not_eq_true, ite_not]
  exact ⟨execDvsc_eq s, execDvsk_eq s, execDvso1_eq s, execDvsovx_eq s⟩

/-- Settles O29: the two shift states, the counter as a number. -/
theorem signedShiftStates : Obligations.SignedShiftStates := by
  intro s
  simp only [toNat_eq_one_iff]
  exact ⟨execDvssh0_eq s, execDvssh1_eq s⟩

/-- Settles O30: the two trials, the check, whose rule asks for C clear, and the restore. -/
theorem signedTrialCheckAndRestoreStates : Obligations.SignedTrialCheckAndRestoreStates := by
  intro s
  simp only [← Bool.not_eq_true, ite_not]
  exact ⟨execDvssb_eq s, execDvsck_eq s, execDvsrs_eq s, execDvsf2_eq s⟩

/-- Settles O31: the collect, with the last quotient bit as the negated borrow, and the four tests. -/
theorem signedFinishingStates : Obligations.SignedFinishingStates := by
  intro s
  simp only [Bool.if_true_right, Bool.decide_eq_true, Bool.or_false]
  exact ⟨execDvsf3_eq s, execDvsf4_eq s, execDvsf5_eq s, execDvsxp1_eq s, execDvsxn1_eq s⟩

/-- Settles O32: the fix-up of a positive divisor; the overflow test of `DVSPM3` reads N and Z. -/
theorem fixupStatesOfPositiveDivisor : Obligations.FixupStatesOfPositiveDivisor := by
  intro s
  simp only [← Flags.positive_iff]
  exact ⟨execDvspp2_eq s, execDvspm2_eq s, execDvspm3_eq s⟩

/-- Settles O33: the fix-up of a negative divisor; the overflow test of `DVSMP3` reads N and Z. -/
theorem fixupStatesOfNegativeDivisorAndWriteback : Obligations.FixupStatesOfNegativeDivisorAndWriteback := by
  intro s
  simp only [← Flags.positive_iff]
  exact ⟨execDvsmm2_eq s, execDvsmm3_eq s, execDvsmp2_eq s, execDvsmp3_eq s, execDvswb_eq s⟩

end Sys2Proof.Machine

/-! Proof of the statement of `60_exceptions.md` (O42): which control states report an outcome. -/

namespace Sys2Proof.Machine

variable {i : Instr} {s t : State}

/-- The control states that report each outcome, and what they find (R181, R182, R183). -/
def ReportedBy (i : Instr) (s : State) : OutcomeTag → Prop
  | .divisionByZero => (i = .dvu2 ∨ i = .dvs2) ∧ s.flags.z = true
  | .overflow => i = .dvuo2 ∨ i = .dvsovx
  | .normal => i = .dvuf4 ∨ i = .dvswb

/-- A choice between two labels that are not terminal is a label that is not terminal. -/
theorem ite_not_terminal (p : Prop) [Decidable p] {a b : LabelCode} (ha : isTerminalLabel a = false)
    (hb : isTerminalLabel b = false) : isTerminalLabel (if p then a else b) = false := by
  split
  · exact ha
  · exact hb

/-- The zero test of the divisor reports `DivisionByZero` when Z is set and leads on otherwise (R102, R132). -/
theorem reported_of_zeroTest {next : LabelCode} (hi : i = .dvu2 ∨ i = .dvs2) (hn : isTerminalLabel next = false)
    (ht : t.control_state = if s.flags.z then OutcomeTag.divisionByZero.label else next) :
    t.done = false ∨ ∃ o : OutcomeTag, t.control_state = o.label ∧ ReportedBy i s o := by
  split at ht
  next hz => exact .inr ⟨.divisionByZero, ht, hi, hz⟩
  next => exact .inl (by rw [State.done, ht, hn])

/-- An engine instruction leaves the block running or reports an outcome: the states that only lead on, to one successor, to one
of two or of four, the two zero tests, the two overflow exits and the two writebacks. -/
theorem exec_engine_outcome (he : isEngine i = true) (h : exec i s = .next t) :
    t.done = false ∨ ∃ o : OutcomeTag, t.control_state = o.label ∧ ReportedBy i s o := by
  cases i
  case dvu1 | dvuo1 | dvusbf | dvusbt | dvurst | dvuf2f | dvuf2t | dvuf3f | dvs1 | dvsp0 | dvsn1 | dvsn2 | dvsa | dvsc |
      dvso1 | dvssb | dvsrs | dvsf2 | dvsf4 | dvspm2 | dvsmm2 | dvsmp2 | dvuf3t | dvsf3 =>
    cases h; exact .inl rfl
  case dvu3 | dvuchk | dvsk | dvssh0 | dvssh1 | dvsck | dvsf5 | dvsxp1 | dvsxn1 | dvspp2 | dvspm3 | dvsmm3 | dvsmp3 =>
    cases h; exact .inl (ite_not_terminal _ rfl rfl)
  case dvush0 | dvush1 => cases h; exact .inl (ite_not_terminal _ (ite_not_terminal _ rfl rfl) (ite_not_terminal _ rfl rfl))
  case dvu2 => cases h; exact reported_of_zeroTest (.inl rfl) rfl rfl
  case dvs2 => cases h; exact reported_of_zeroTest (.inr rfl) (ite_not_terminal _ rfl rfl) rfl
  case dvuo2 => cases h; exact .inr ⟨.overflow, rfl, .inl rfl⟩
  case dvsovx => cases h; exact .inr ⟨.overflow, rfl, .inr rfl⟩
  case dvuf4 => cases h; exact .inr ⟨.normal, rfl, .inl rfl⟩
  case dvswb => cases h; exact .inr ⟨.normal, rfl, .inr rfl⟩
  all_goals exact absurd he Bool.false_ne_true

/-- A label that selects one of two instructions is the code of one of them. -/
theorem control_state_of_csCode {j k : Instr} {a b : LabelCode} (hc : csCode i = some s.control_state) (hi : i = j ∨ i = k)
    (hj : csCode j = some a) (hk : csCode k = some b) : s.control_state = a ∨ s.control_state = b := by
  rcases hi with rfl | rfl
  · exact .inl (Option.some.inj (hc.symm.trans hj))
  · exact .inr (Option.some.inj (hc.symm.trans hk))

/-- Settles O42: a step that ends an invocation is an engine instruction that reports an outcome, and `outcomeOf` reads the
outcome from its terminal label. -/
theorem onlyNamedStatesEndAnInvocation : Obligations.OnlyNamedStatesEndAnInvocation := by
  intro s t hd h ht
  obtain ⟨i, he, hc, hx⟩ := step_running_cases hd h
  obtain hrunning | ⟨o, hlabel, hby⟩ := exec_engine_outcome he hx
  · exact absurd ht (by simp [hrunning])
  have ho : outcomeOf t.control_state = some o := (outcomeOf_eq_some_iff _ o).mpr hlabel
  cases o with
  | divisionByZero =>
    obtain ⟨hi, hz⟩ := hby
    exact .inl ⟨ho, control_state_of_csCode hc hi rfl rfl, hz⟩
  | overflow => exact .inr (.inl ⟨ho, control_state_of_csCode hc hby rfl rfl⟩)
  | normal => exact .inr (.inr ⟨ho, control_state_of_csCode hc hby rfl rfl⟩)

end Sys2Proof.Machine

/-! Proofs of the statements of `70_reset_and_hazards.md` (O39, O8, O10, O35): the cost of a control state, reset, and `start`
while the block runs. -/

namespace Sys2Proof.Machine

/-- Settles O39: `EngineStep.beside` with the entry's `pc_scratch` and waiting moves, so that `cycles` alone differs; an idle
block without a move executes a terminal label, which changes nothing (R72). -/
theorem everyControlStateAddsTwoCycles : Obligations.EveryControlStateAddsTwoCycles := by
  refine ⟨fun s t n hd h => ?_, fun s t hd hi h => ?_⟩
  · obtain ⟨i, he, hc, hx, hstep⟩ := engineStep_of_step hd h
    obtain ⟨hpc, hcycles, hinputs⟩ := exec_engine_beside he hx
    refine ⟨hcycles, ?_⟩
    calc step { s with cycles := n }
      _ = exec i { s with cycles := n } := step_of_engine (s := { s with cycles := n }) i hc he
      _ = .next { t with pc_scratch := s.pc_scratch, cycles := n + 2, inputs := s.inputs } :=
        hstep.beside s.pc_scratch n s.inputs
      _ = .next { t with cycles := n + 2 } := by rw [← hpc, ← hinputs]
  · rw [step_of_no_inputs hi, runLabel_of_done hd] at h
    cases h
    rfl

/-- The block is idle after reset, whatever it did before (R200). -/
theorem State.applyReset_done (s : State) : s.applyReset.done = true := rfl

/-- The machine right after reset is one that reset leaves as it is. -/
theorem State.reset_applyReset : State.reset.applyReset = State.reset := rfl

/-- Reset leaves a defined label and an even count from every state, sound or not (R200, R30). -/
theorem State.applyReset_sound (s : State) : s.applyReset.Sound := by
  have hlabel : (decodeLabel Label.tNext).isSome = true := rfl
  exact ⟨hlabel, rfl⟩

/-- Settles O8: reset is the update of the two fields by its definition, and the block after it holds `T_NEXT`. -/
theorem resetHoldsNextLabelAndZeroCycles : Obligations.ResetHoldsNextLabelAndZeroCycles :=
  ⟨fun s => ⟨rfl, s.applyReset_done⟩, rfl, rfl, State.reset_applyReset⟩

/-- Settles O35: reset leaves a sound state from every state, and from `State.reset` that state itself. -/
theorem resetIsSound : Obligations.ResetIsSound := by
  rw [Obligations.ResetIsSound, ← State.reset_applyReset]
  exact State.reset.applyReset_sound

/-- A running block refuses to start either operation (U8, R212). -/
theorem State.startInvocation_of_running {s : State} (op : BitVec 1) (hd : s.done = false) :
    s.startInvocation op = .refused .startWhileRunning := by
  simp [State.startInvocation, hd]

/-- Settles O10: both operations are `State.startInvocation`, which a running block refuses. -/
theorem startWhileRunningIsRefused : Obligations.StartWhileRunningIsRefused := fun _ hd =>
  ⟨State.startInvocation_of_running 0#1 hd, State.startInvocation_of_running 1#1 hd⟩

end Sys2Proof.Machine
